-- ==== Sys2Proof/Word.lean ====
section
/-! DEFINITION. The plain widths of the T240: a byte, and the ends of the signed 24-bit position range
(00_scope.md, Conventions; section 1.1). Counts, velocities and times are numbers in the manual and are `Int` or `Nat`
here; only what the tier bus and the store carry as bits is a bit vector. -/

namespace Sys2Proof

/-- One character of a frame, or one byte of a stored record. -/
abbrev Byte := BitVec 8

/-- Lower end of the position range (00_scope.md, Positions). -/
abbrev posMin : Int := -8388608

/-- Upper end of the position range (00_scope.md, Positions). -/
abbrev posMax : Int := 8388607

end Sys2Proof
end

