-- ==== Sys2Proof/Syntax.lean ====
section
/-! DEFINITION. The commands of the block: one constructor of `Instr` for each of the 67 rows of
spec/opcode_table.json, with the operands the row's rule gives it. A frame row carries the fields of the frame that
passed (09_the_tier_bus.md, section 9.2); an event row carries what the event names. -/

namespace Sys2Proof

/-- The two axes of a wagon (00_scope.md, Signal groups). -/
inductive Axis where
  | slew
  | rake
  deriving DecidableEq, Repr, Inhabited

/-- A direction of travel. For a counted transition `pos` is UP and `neg` is DOWN (section 1.1). -/
inductive Dir where
  | neg
  | pos
  deriving DecidableEq, Repr, Inhabited

/-- The input levels a part reads as it leaves cold reset (R9, R18, R51, R177): encoder channels, end limits (true is
ACTIVE), the rake reference switch (true is closed), drive-ready, the local stop chain (true is open) and the STOP line
(true is ASSERTED). -/
structure Pins where
  slewA : Bool
  slewB : Bool
  rakeA : Bool
  rakeB : Bool
  slewNeg : Bool
  slewPos : Bool
  rakeNeg : Bool
  rakePos : Bool
  rakeSwitch : Bool
  slewReady : Bool
  rakeReady : Bool
  chainOpen : Bool
  stopLine : Bool
  deriving DecidableEq, Repr, Inhabited

/-- What the receiver meets on the line (R153 to R155). -/
inductive LineEvent where
  /-- a dominant edge, at a time counted in bit times -/
  | edge (time : Nat)
  /-- the receiver's next sample point; `true` is the recessive level -/
  | sample (recessive : Bool)
  /-- the line stays recessive for `n` further bit times -/
  | recessive (n : Nat)
  deriving DecidableEq, Repr, Inhabited

/-- Header station and unit tag, bytes 0 (bits 4 to 0) and 1 to 3 of every frame (section 9.2). -/
structure Sender where
  station : BitVec 5
  unitTag : BitVec 24
  deriving DecidableEq, Repr, Inhabited

/-- The status payload as carried (section 9.2). `flags` is bits 3 to 0 of byte 0: bit 0 slew referenced, bit 1 rake
referenced, bit 2 stop line seen, bit 3 enable present. A zone entry is its number and its zone state byte. -/
structure StatusPayload where
  mode : BitVec 4
  flags : BitVec 4
  seqState : BitVec 4
  phase : BitVec 4
  layout : Byte
  step : Byte
  slewE : BitVec 24
  slewLo : BitVec 24
  slewHi : BitVec 24
  rakeE : BitVec 24
  rakeHi : BitVec 24
  zones : List (Byte × Byte)
  fault : Byte
  notice : Byte
  outStation : Byte
  outTag : Byte
  outCode : Byte
  deriving DecidableEq, Repr, Inhabited

/-- What every COMMAND frame carries before its arguments (section 9.2). -/
structure CommandHead where
  sender : Sender
  tag : Byte
  targets : BitVec 32
  deriving DecidableEq, Repr, Inhabited

/-- A SERVICE_REQ frame without its kind (section 9.2), and the levels of the board's inputs when the request is judged: the
commissioning jumper (R179) and the station straps, which a CONFIG_COMMIT's check takes as the own number (R181). -/
structure ServiceReq where
  sender : Sender
  target : Byte
  tag : Byte
  args : List Byte
  jumper : Bool
  straps : BitVec 5
  deriving DecidableEq, Repr, Inhabited

/-- The commands of the T240: the rows of spec/opcode_table.json, in the table's order. -/
inductive Instr where
  | coldReset (pins : Pins)
  | startEnd (straps : BitVec 5)
  | warmRestart
  | encoderTransition (axis : Axis) (a b : Bool)
  | slewIndexMark
  | rakeSwitchClose
  | rakeSwitchOpen
  | endLimitActive (axis : Axis) (dir : Dir)
  | endLimitInactive (axis : Axis) (dir : Dir)
  | profileTick
  | driveReadyActive (axis : Axis)
  | readyLimitExpiry (axis : Axis)
  | brakeReleaseExpiry (axis : Axis)
  | holdExpiry (axis : Axis)
  | brakeSetExpiry (axis : Axis)
  | driveLoss (axis : Axis)
  | localStopChainOpen
  | localStopChainClose
  | claimWindowExpiry
  | zoneTimeout
  | statusFrame (sender : Sender) (payload : StatusPayload)
  | peerStale (station : BitVec 5)
  | peerLost (station : BitVec 5)
  | stopFrame (sender : Sender)
  | enableFrame (sender : Sender) (targets : BitVec 32)
  | enableExpiry
  | convert (head : CommandHead) (layout : Byte) (delay : BitVec 16)
  | cancel (head : CommandHead)
  | home (head : CommandHead) (axis : Byte)
  | jog (head : CommandHead) (axis dir : Byte) (speed : BitVec 24)
  | jogEnd (head : CommandHead) (axis : Byte)
  | clearFault (head : CommandHead)
  | serviceReplyFrame (sender : Sender) (requester kind tag outcome : Byte) (data : List Byte)
  | frameDiscard (line : List LineEvent)
  | identify (req : ServiceReq)
  | readFault (req : ServiceReq)
  | readPeers (req : ServiceReq)
  | readCapture (req : ServiceReq)
  | readSlot (req : ServiceReq)
  | commissionEnter (req : ServiceReq)
  | commissionExit (req : ServiceReq)
  | restart (req : ServiceReq)
  | writeEnable (req : ServiceReq)
  | eraseSlot (req : ServiceReq)
  | eraseComplete
  | programSteps (req : ServiceReq)
  | programComplete
  | finalizeSlot (req : ServiceReq)
  | finalizeComplete
  | lockSlot (req : ServiceReq)
  | lockComplete
  | configWrite (req : ServiceReq)
  | configCommit (req : ServiceReq)
  | commitComplete
  | undefinedServiceReq (kind : Byte) (req : ServiceReq)
  | transmitStart
  | withdraw (bit : Nat)
  | frameComplete
  | statusDue
  | busSilent
  | holdOffExpiry
  | stepTimeout
  | dwellEnd
  | stopLineAsserted
  | stopLineReleased
  | pwmPeriodStart (axis : Axis)
  | resetTaken
  deriving DecidableEq, Repr, Inhabited

end Sys2Proof
end

