-- ==== Sys2Proof/Config.lean ====
section
/-! DEFINITION. What the manual fixes for every T240 (times and sizes), and the free values: what it leaves open and the
model leaves open too (constants with no body; nothing can be proved of them). Times are in milliseconds. -/

namespace Sys2Proof.Config

/-- Profile tick period (R20). -/
abbrev tickPeriod : Nat := 2
/-- Ready limit of the drive handshake (section 3.1, R40). -/
abbrev readyLimit : Nat := 500
/-- Claim window (R78). -/
abbrev claimWindow : Nat := 100
/-- Age past which a FRESH record becomes STALE (R111). -/
abbrev staleAge : Nat := 75
/-- Age past which a STALE record becomes LOST (R111). -/
abbrev lostAge : Nat := 500
/-- Where the age stops growing (R111). -/
abbrev ageCap : Nat := 65535
/-- Enable timer (R141). -/
abbrev enableTime : Nat := 150
/-- Status schedule period (R160). -/
abbrev statusPeriod : Nat := 25
/-- Silence limit (R161). -/
abbrev silenceLimit : Nat := 250
/-- Time from acceptance to a warm restart at the latest (R180). -/
abbrev restartLimit : Nat := 250
/-- Hold-off clamp (R122). -/
abbrev holdOffMin : Nat := 200
abbrev holdOffMax : Nat := 5000
/-- Self-timed store operations (R182, R184, R185). -/
abbrev eraseTime : Nat := 40
abbrev programTime : Nat := 6
abbrev finalizeTime : Nat := 10
abbrev lockTime : Nat := 10
abbrev commitTime : Nat := 30
/-- Most records of the peer view (R104). -/
abbrev maxPeers : Nat := 8
/-- Slots of the layout store and cells of a slot (section 11.3). -/
abbrev slotCount : Nat := 12
abbrev cellCount : Nat := 16
/-- Most characters of a frame (section 9, frame buffer). -/
abbrev maxChars : Nat := 46

/-- FREE VALUE (log entry 4): the mark position that a reference mark is judged against while no commissioning record is in
force, fresh at each use; the manual gives the mark position only from a record (section 1.1). -/
opaque markWithoutRecord : Nat → Int

/-- FREE VALUE (log entry 4): the slip tolerance of such a mark. -/
opaque slipWithoutRecord : Nat → Nat

/-- FREE VALUE (log entry 5): whether cell `c` of a slot whose ERASE_SLOT a reset tore keeps its programmed content
(R186: its target is left torn). First argument: a fresh count. -/
opaque tornCellKept : Nat → Nat → Bool

/-- FREE VALUE (log entry 5): whether the header of a slot torn by ERASE_SLOT or LOCK_SLOT is still read as a header. -/
opaque tornHeaderKept : Nat → Bool

/-- FREE VALUE (log entry 6): which of the fields that a failed relation of R181 ties is the one found wrong (R182 reports
one offset and does not say which); the argument lists the offsets tied. -/
opaque blamedField : List Nat → Nat

/-- FREE VALUE (log entry 32): the deviation bytes that READ_CAPTURE sends for an empty capture record (R188 gives the two counts
alone); the argument is E. -/
opaque emptyDeviation : Int → BitVec 32

end Sys2Proof.Config
end

