-- ==== Sys2Proof/WellFormed.lean ====
section
/-! DEFINITION. Which commands can reach the block. The operands of an event are well formed by their types; a frame row
is well formed when its frame can pass the length and class checks of R156. What the block does with a frame that cannot
pass is R156's discard, so `exec` is defined on ill-formed commands too. -/

namespace Sys2Proof

/-- R156: a STATUS carries at most 4 zones (its zone count n is at most 4). -/
def StatusPayload.wf (p : StatusPayload) : Bool := decide (p.zones.length ≤ 4)

/-- R156, section 9.2: a SERVICE_REQ has at most 37 argument bytes (its payload is at most 40). -/
def ServiceReq.wf (r : ServiceReq) : Bool := decide (r.args.length ≤ 37)

/-- The commands that can reach the block (R156; R164 for the undefined request kinds). -/
def Instr.wf : Instr → Bool
  | .coldReset _ => true
  | .startEnd _ => true
  | .warmRestart => true
  | .encoderTransition _ _ _ => true
  | .slewIndexMark => true
  | .rakeSwitchClose => true
  | .rakeSwitchOpen => true
  | .endLimitActive _ _ => true
  | .endLimitInactive _ _ => true
  | .profileTick => true
  | .driveReadyActive _ => true
  | .readyLimitExpiry _ => true
  | .brakeReleaseExpiry _ => true
  | .holdExpiry _ => true
  | .brakeSetExpiry _ => true
  | .driveLoss _ => true
  | .localStopChainOpen => true
  | .localStopChainClose => true
  | .claimWindowExpiry => true
  | .zoneTimeout => true
  | .statusFrame _ p => p.wf
  | .peerStale _ => true
  | .peerLost _ => true
  | .stopFrame _ => true
  | .enableFrame _ _ => true
  | .enableExpiry => true
  | .convert _ _ _ => true
  | .cancel _ => true
  | .home _ _ => true
  | .jog _ _ _ _ => true
  | .jogEnd _ _ => true
  | .clearFault _ => true
  | .serviceReplyFrame _ _ _ _ _ d => decide (d.length ≤ 36)
  | .frameDiscard _ => true
  | .identify r => r.wf
  | .readFault r => r.wf
  | .readPeers r => r.wf
  | .readCapture r => r.wf
  | .readSlot r => r.wf
  | .commissionEnter r => r.wf
  | .commissionExit r => r.wf
  | .restart r => r.wf
  | .writeEnable r => r.wf
  | .eraseSlot r => r.wf
  | .eraseComplete => true
  | .programSteps r => r.wf
  | .programComplete => true
  | .finalizeSlot r => r.wf
  | .finalizeComplete => true
  | .lockSlot r => r.wf
  | .lockComplete => true
  | .configWrite r => r.wf
  | .configCommit r => r.wf
  | .commitComplete => true
  | .undefinedServiceReq k r => r.wf && !(decide (1 ≤ k.toNat) && decide (k.toNat ≤ 15))
  | .transmitStart => true
  | .withdraw _ => true
  | .frameComplete => true
  | .statusDue => true
  | .busSilent => true
  | .holdOffExpiry => true
  | .stepTimeout => true
  | .dwellEnd => true
  | .stopLineAsserted => true
  | .stopLineReleased => true
  | .pwmPeriodStart _ => true
  | .resetTaken => true

end Sys2Proof
end

