-- ==== Sys2Proof/Decode.lean ====
section
/-! DEFINITION. The bytes of the tier bus (09_the_tier_bus.md): the two checks, the frame that a frame row stands for
(`encodeFrame`), and the frame checks and sorting of R156 and section 9.2 over any characters (`decodeFrame`, total,
refusing by `none`). The opcode table itself gives its rows no bits, so `decodeTableWord` answers none. -/

namespace Sys2Proof

/-! ## Bytes, most significant first (00_scope.md, Byte order) -/

/-- The two bytes of a 16-bit field. -/
def bytes16 (x : BitVec 16) : List Byte := [x.extractLsb' 8 8, x.extractLsb' 0 8]

/-- The three bytes of a 24-bit field. -/
def bytes24 (x : BitVec 24) : List Byte := [x.extractLsb' 16 8, x.extractLsb' 8 8, x.extractLsb' 0 8]

/-- The four bytes of a 32-bit field. -/
def bytes32 (x : BitVec 32) : List Byte :=
  [x.extractLsb' 24 8, x.extractLsb' 16 8, x.extractLsb' 8 8, x.extractLsb' 0 8]

def join16 (a b : Byte) : BitVec 16 := a ++ b
def join24 (a b c : Byte) : BitVec 24 := a ++ b ++ c
def join32 (a b c d : Byte) : BitVec 32 := a ++ b ++ c ++ d

/-- The bits of a byte, most significant first (section 9.1). -/
def bitsOf (b : Byte) : List Bool :=
  [b.getLsbD 7, b.getLsbD 6, b.getLsbD 5, b.getLsbD 4, b.getLsbD 3, b.getLsbD 2, b.getLsbD 1, b.getLsbD 0]

/-- The byte of eight bits given most significant first. -/
def byteOfBits (bs : List Bool) : Byte := bs.foldl (fun acc b => (acc <<< 1) ||| (BitVec.ofBool b).setWidth 8) 0#8

/-! ## Checks -/

/-- One bit into the CRC-8 register: polynomial x⁸ + x⁵ + x³ + x² + x + 1 (R156). -/
def crc8Bit (c : BitVec 8) (b : Bool) : BitVec 8 := if c.msb ^^ b then (c <<< 1) ^^^ 0x2F#8 else c <<< 1

/-- CRC-8 of R156: register preset to all ones, most significant bit first, final value used without inversion. -/
def crc8 (bs : List Byte) : Byte := bs.foldl (fun c x => (bitsOf x).foldl crc8Bit c) 0xFF#8

/-- One bit into the CRC-16 register: polynomial x¹⁶ + x¹² + x⁵ + 1 (R178). -/
def crc16Bit (c : BitVec 16) (b : Bool) : BitVec 16 := if c.msb ^^ b then (c <<< 1) ^^^ 0x1021#16 else c <<< 1

/-- CRC-16 of R178: register preset to all ones, most significant bit first, stored without inversion. -/
def crc16 (bs : List Byte) : BitVec 16 := bs.foldl (fun c x => (bitsOf x).foldl crc16Bit c) 0xFFFF#16

/-! ## Frames (section 9.2) -/

/-- Byte 0 of a frame: class in bits 7 to 5, station in bits 4 to 0. -/
def headerByte (cls : BitVec 3) (station : BitVec 5) : Byte := cls ++ station

/-- The envelope of every frame: header, unit tag, payload length, payload, CRC-8 over all before it. -/
def frameBytes (cls : BitVec 3) (snd : Sender) (payload : List Byte) : List Byte :=
  let body := headerByte cls snd.station :: (bytes24 snd.unitTag ++ BitVec.ofNat 8 payload.length :: payload)
  body ++ [crc8 body]

/-- The status payload (section 9.2): 25 + 2n bytes. -/
def statusBytes (p : StatusPayload) : List Byte :=
  (p.mode ++ p.flags : Byte) :: (p.seqState ++ p.phase : Byte) :: p.layout :: p.step ::
    (bytes24 p.slewE ++ bytes24 p.slewLo ++ bytes24 p.slewHi ++ bytes24 p.rakeE ++ bytes24 p.rakeHi ++
      BitVec.ofNat 8 p.zones.length :: (p.zones.flatMap (fun z => [z.1, z.2]) ++
        [p.fault, p.notice, p.outStation, p.outTag, p.outCode]))

/-- The command payload before its arguments. -/
def commandBytes (kind : Byte) (h : CommandHead) (args : List Byte) : List Byte :=
  kind :: h.tag :: (bytes32 h.targets ++ args)

/-- The frame of a command row. -/
def commandFrame (kind : Byte) (h : CommandHead) (args : List Byte) : List Byte :=
  frameBytes 2#3 h.sender (commandBytes kind h args)

/-- The frame of a service request row. -/
def serviceFrame (kind : Byte) (r : ServiceReq) : List Byte :=
  frameBytes 4#3 r.sender (r.target :: kind :: r.tag :: r.args)

/-- The characters of the frame that a frame row stands for; `none` for the rows that are not a frame. -/
def encodeFrame : Instr → Option (List Byte)
  | .stopFrame snd => some (frameBytes 0#3 snd [])
  | .enableFrame snd t => some (frameBytes 1#3 snd (bytes32 t))
  | .convert h l d => some (commandFrame 1 h (l :: bytes16 d))
  | .cancel h => some (commandFrame 2 h [])
  | .home h a => some (commandFrame 3 h [a])
  | .jog h a d v => some (commandFrame 4 h (a :: d :: bytes24 v))
  | .jogEnd h a => some (commandFrame 5 h [a])
  | .clearFault h => some (commandFrame 6 h [])
  | .statusFrame snd p => some (frameBytes 3#3 snd (statusBytes p))
  | .identify r => some (serviceFrame 1 r)
  | .readFault r => some (serviceFrame 2 r)
  | .readPeers r => some (serviceFrame 3 r)
  | .readCapture r => some (serviceFrame 4 r)
  | .readSlot r => some (serviceFrame 5 r)
  | .commissionEnter r => some (serviceFrame 6 r)
  | .commissionExit r => some (serviceFrame 7 r)
  | .writeEnable r => some (serviceFrame 8 r)
  | .eraseSlot r => some (serviceFrame 9 r)
  | .programSteps r => some (serviceFrame 10 r)
  | .finalizeSlot r => some (serviceFrame 11 r)
  | .lockSlot r => some (serviceFrame 12 r)
  | .configWrite r => some (serviceFrame 13 r)
  | .configCommit r => some (serviceFrame 14 r)
  | .restart r => some (serviceFrame 15 r)
  | .undefinedServiceReq k r => some (serviceFrame k r)
  | .serviceReplyFrame snd q k t o d => some (frameBytes 5#3 snd (q :: k :: t :: o :: d))
  | _ => none

/-- The sender of a frame row; `none` for the rows that are not a frame. -/
def Instr.sender : Instr → Option Sender
  | .stopFrame snd => some snd
  | .enableFrame snd _ => some snd
  | .convert h _ _ => some h.sender
  | .cancel h => some h.sender
  | .home h _ => some h.sender
  | .jog h _ _ _ => some h.sender
  | .jogEnd h _ => some h.sender
  | .clearFault h => some h.sender
  | .statusFrame snd _ => some snd
  | .identify r => some r.sender
  | .readFault r => some r.sender
  | .readPeers r => some r.sender
  | .readCapture r => some r.sender
  | .readSlot r => some r.sender
  | .commissionEnter r => some r.sender
  | .commissionExit r => some r.sender
  | .writeEnable r => some r.sender
  | .eraseSlot r => some r.sender
  | .programSteps r => some r.sender
  | .finalizeSlot r => some r.sender
  | .lockSlot r => some r.sender
  | .configWrite r => some r.sender
  | .configCommit r => some r.sender
  | .restart r => some r.sender
  | .undefinedServiceReq _ r => some r.sender
  | .serviceReplyFrame snd _ _ _ _ _ => some snd
  | _ => none

/-- The header of a COMMAND row (section 9.2). -/
def Instr.commandHead : Instr → Option CommandHead
  | .convert h _ _ => some h
  | .cancel h => some h
  | .home h _ => some h
  | .jog h _ _ _ => some h
  | .jogEnd h _ => some h
  | .clearFault h => some h
  | _ => none

/-- The kind and the request of a SERVICE_REQ row (section 9.2). -/
def Instr.serviceReq : Instr → Option (Byte × ServiceReq)
  | .identify r => some (1, r)
  | .readFault r => some (2, r)
  | .readPeers r => some (3, r)
  | .readCapture r => some (4, r)
  | .readSlot r => some (5, r)
  | .commissionEnter r => some (6, r)
  | .commissionExit r => some (7, r)
  | .writeEnable r => some (8, r)
  | .eraseSlot r => some (9, r)
  | .programSteps r => some (10, r)
  | .finalizeSlot r => some (11, r)
  | .lockSlot r => some (12, r)
  | .configWrite r => some (13, r)
  | .configCommit r => some (14, r)
  | .restart r => some (15, r)
  | .undefinedServiceReq k r => some (k, r)
  | _ => none

/-- The jumper level that a row carries beside its frame (R179); low for a row that is not a SERVICE_REQ. -/
def Instr.jumper (c : Instr) : Bool := (c.serviceReq.map (·.2.jumper)).getD false

/-- The strap level that a row carries beside its frame (R181); 0 for a row that is not a SERVICE_REQ. -/
def Instr.strapLevel (c : Instr) : BitVec 5 := (c.serviceReq.map (·.2.straps)).getD 0

/-- The characters of a row's frame; none for a row that is not a frame. -/
def Instr.frame (c : Instr) : List Byte := (encodeFrame c).getD []

/-- Zone entries of a status payload, `n` of them, and what follows them. -/
def takeZones : Nat → List Byte → Option (List (Byte × Byte) × List Byte)
  | 0, bs => some ([], bs)
  | n + 1, z :: st :: bs => (takeZones n bs).map (fun r => ((z, st) :: r.1, r.2))
  | _ + 1, _ => none

/-- A STATUS payload of the length its zone count asks for (R156). -/
def decodeStatus : List Byte → Option StatusPayload
  | b0 :: b1 :: lay :: stp :: e2 :: e1 :: e0 :: l2 :: l1 :: l0 :: h2 :: h1 :: h0 :: r2 :: r1 :: r0 :: k2 :: k1 :: k0 ::
      n :: rest =>
    if n.toNat ≤ 4 then
      match takeZones n.toNat rest with
      | some (zs, [f, nt, os, ot, oc]) =>
        some
          { mode := b0.extractLsb' 4 4, flags := b0.extractLsb' 0 4, seqState := b1.extractLsb' 4 4
            phase := b1.extractLsb' 0 4, layout := lay, step := stp, slewE := join24 e2 e1 e0
            slewLo := join24 l2 l1 l0, slewHi := join24 h2 h1 h0, rakeE := join24 r2 r1 r0, rakeHi := join24 k2 k1 k0
            zones := zs, fault := f, notice := nt, outStation := os, outTag := ot, outCode := oc }
      | _ => none
    else none
  | _ => none

/-- A COMMAND payload: 6 bytes plus the argument length of its kind; an undefined kind fails (R156). -/
def decodeCommand (snd : Sender) : List Byte → Option Instr
  | kind :: tag :: t3 :: t2 :: t1 :: t0 :: args =>
    let h : CommandHead := { sender := snd, tag := tag, targets := join32 t3 t2 t1 t0 }
    match kind.toNat, args with
    | 1, [l, d1, d0] => some (.convert h l (join16 d1 d0))
    | 2, [] => some (.cancel h)
    | 3, [a] => some (.home h a)
    | 4, [a, d, v2, v1, v0] => some (.jog h a d (join24 v2 v1 v0))
    | 5, [a] => some (.jogEnd h a)
    | 6, [] => some (.clearFault h)
    | _, _ => none
  | _ => none

/-- The request row of a request kind; a kind that is not 1 to 15 is the undefined request (R164). -/
def requestRow (kind : Byte) (r : ServiceReq) : Instr :=
  match kind.toNat with
  | 1 => .identify r
  | 2 => .readFault r
  | 3 => .readPeers r
  | 4 => .readCapture r
  | 5 => .readSlot r
  | 6 => .commissionEnter r
  | 7 => .commissionExit r
  | 8 => .writeEnable r
  | 9 => .eraseSlot r
  | 10 => .programSteps r
  | 11 => .finalizeSlot r
  | 12 => .lockSlot r
  | 13 => .configWrite r
  | 14 => .configCommit r
  | 15 => .restart r
  | _ => .undefinedServiceReq kind r

/-- A payload of a class, checked against the lengths of R156. `jumper` and `straps` are the levels of the
commissioning jumper and of the station straps. -/
def decodePayload (jumper : Bool) (straps : BitVec 5) (cls : Nat) (snd : Sender) (payload : List Byte) : Option Instr :=
  match cls, payload with
  | 0, [] => some (.stopFrame snd)
  | 1, [a, b, c, d] => some (.enableFrame snd (join32 a b c d))
  | 2, p => decodeCommand snd p
  | 3, p => (decodeStatus p).map (.statusFrame snd)
  | 4, t :: k :: g :: args =>
    some (requestRow k { sender := snd, target := t, tag := g, args := args, jumper := jumper, straps := straps })
  | 5, q :: k :: g :: o :: d => some (.serviceReplyFrame snd q k g o d)
  | _, _ => none

/-- The checks of R156 over the characters of a frame that ended at line idle, and its sorting by class: at least 6
characters, payload length at most 40 and equal to what came, CRC-8 good, class 0 to 5, length as the class asks. -/
def decodeFrame (jumper : Bool) (straps : BitVec 5) (chars : List Byte) : Option Instr :=
  match chars with
  | h :: u2 :: u1 :: u0 :: len :: rest =>
    if rest = [] then none
    else
      let payload := rest.dropLast
      if len.toNat ≤ 40 && decide (payload.length = len.toNat) &&
          decide (rest.getLast? = some (crc8 (h :: u2 :: u1 :: u0 :: len :: payload))) then
        decodePayload jumper straps (h.extractLsb' 5 3).toNat
          { station := h.extractLsb' 0 5, unitTag := join24 u2 u1 u0 } payload
      else none
  | _ => none

/-- The command that a word of the opcode table spells: spec/opcode_table.json gives none of its 67 rows any bits, so no
word spells a command. -/
def decodeTableWord (_nbits _w : Nat) : Option Instr := none

end Sys2Proof
end

