-- ==== Sys2Proof/Machine/Parts.lean ====
section
/-! DEFINITION. The parts of the state: for each block of the T240, the items its chapter lists, under the chapter's own
names, and the value each part starts with after a cold reset. -/

namespace Sys2Proof.Machine

/-! ## Position unit (section 1.1) -/

/-- What a reference mark did (R6). -/
inductive MarkUse where
  | preset
  | within
  | slip
  | unchecked
  deriving DecidableEq, Repr, Inhabited

/-- The capture record of section 1.1, when it is not empty. -/
structure Capture where
  captured : Int
  deviation : Int
  marks : Nat
  use : MarkUse
  deriving DecidableEq, Repr, Inhabited

/-- The legs of a homing search (section 1.5). -/
inductive Leg where
  | outbound
  | reversing
  | returning
  | turning
  | descent
  | stopping
  deriving DecidableEq, Repr, Inhabited

/-! ## Profile and handshake (sections 2.1 and 3.1) -/

/-- The blocks that ask an axis to move (section 2.3). -/
inductive Requester where
  | sequencer
  | enableMonitor
  | positionUnit
  deriving DecidableEq, Repr, Inhabited

/-- The rate of a BRAKE request: A or A_quick (R21). -/
inductive BrakeRate where
  | normal
  | quick
  deriving DecidableEq, Repr, Inhabited

/-- What a motion request carries (R21). As the profile's mode, its speed is Vseg. -/
inductive Goal where
  | position (target : Int) (speed : Nat)
  | velocity (dir : Dir) (speed : Nat)
  | brake (rate : BrakeRate)
  deriving DecidableEq, Repr, Inhabited

/-- A motion request and the block that gave it. -/
structure Request where
  goal : Goal
  asker : Requester
  deriving DecidableEq, Repr, Inhabited

/-- The two kinds of stop order (R31). -/
inductive StopKind where
  | controlled
  | quick
  deriving DecidableEq, Repr, Inhabited

/-- The legs of STARTING (section 3.1). -/
inductive StartLeg where
  | awaitReady
  | releasing
  deriving DecidableEq, Repr, Inhabited

/-- The axis states (section 3.1) with what each carries: the starting leg in STARTING, whether the hold runs in TRACKING,
the stop order in STOPPING. -/
inductive AxisState where
  | off
  | starting (leg : StartLeg)
  | tracking (hold : Bool)
  | stopping (order : StopKind)
  | settling
  | faulted
  deriving DecidableEq, Repr, Inhabited

/-- All that the part holds of one axis: position unit, profile, handshake, and the axis's own pins. -/
structure AxisUnit where
  /-- measured count E -/
  e : Int
  /-- the decoder pair: last levels seen on A and B -/
  chA : Bool
  chB : Bool
  /-- last direction: `some pos` is UP, `some neg` is DOWN -/
  lastDir : Option Dir
  /-- reference state: true is REFERENCED -/
  referenced : Bool
  capture : Option Capture
  /-- end limit inputs: true is ACTIVE -/
  negLimit : Bool
  posLimit : Bool
  /-- search leg -/
  leg : Option Leg
  /-- whether the search has met its first limit (R12, R14) -/
  metLimit : Bool
  /-- profile position, whole counts -/
  p : Int
  /-- fraction of the profile position, in 1/65,536 count -/
  f : Int
  /-- profile velocity, fsu: what the last tick left, or 0 once the axis has come to rest outside a tick (R50) -/
  v : Int
  /-- the velocity that the last profile tick left, fsu: what an end limit becoming ACTIVE is compared with (R10, R20) -/
  tickV : Int
  /-- profile mode, with T, direction, Vseg or brake rate -/
  mode : Option Goal
  /-- the block whose request set the mode -/
  requester : Option Requester
  state : AxisState
  /-- handshake timer: time left of the period the state times -/
  timer : Option Nat
  pending : Option Request
  /-- outputs -/
  driveEnable : Bool
  brakeRelease : Bool
  /-- the speed reference last computed, per mille -/
  speedRef : Int
  /-- the reference that the PWM output shows in its present period (R34) -/
  pwm : Int
  /-- drive-ready input -/
  ready : Bool
  /-- reference switch input, used by the rake alone: true is closed -/
  refSwitch : Bool
  deriving DecidableEq, Repr, Inhabited

/-- An axis after a cold reset (R18, R37, R54), with the levels first read on its pins. -/
def AxisUnit.cold (a b neg pos ready sw : Bool) : AxisUnit where
  e := 0
  chA := a
  chB := b
  lastDir := none
  referenced := false
  capture := none
  negLimit := neg
  posLimit := pos
  leg := none
  metLimit := false
  p := 0
  f := 0
  v := 0
  tickV := 0
  mode := none
  requester := none
  state := .off
  timer := none
  pending := none
  driveEnable := false
  brakeRelease := false
  speedRef := 0
  pwm := 0
  ready := ready
  refSwitch := sw

/-- What a warm restart carries through on an axis (R19, R38, R54, R180): E, the decoder pair, the last direction, the
reference state and the input levels; P is set to E and everything else starts as after a cold reset. -/
def AxisUnit.warm (a : AxisUnit) : AxisUnit :=
  { AxisUnit.cold a.chA a.chB a.negLimit a.posLimit a.ready a.refSwitch with
    e := a.e
    lastDir := a.lastDir
    referenced := a.referenced
    p := a.e }

/-! ## Stopping envelope (section 4.1) -/

/-- A closed range of counts. -/
structure Range where
  lo : Int
  hi : Int
  deriving DecidableEq, Repr, Inhabited

/-- The whole position range. -/
def Range.whole : Range := { lo := posMin, hi := posMax }

/-- Slew requested travel: the direction, and the target in POSITION mode (R61). -/
structure Travel where
  dir : Dir
  target : Option Int
  deriving DecidableEq, Repr, Inhabited

/-- What the last profile tick wrote of the envelopes. -/
structure Envelopes where
  slew : Range
  approach : Range
  travel : Option Travel
  velLeft : Int
  rakeHi : Int
  deriving DecidableEq, Repr, Inhabited

/-- R76: until the first tick after a cold reset. -/
def Envelopes.cold : Envelopes where
  slew := Range.whole
  approach := Range.whole
  travel := none
  velLeft := 0
  rakeHi := posMax

/-! ## Zone guard (section 5.1) -/

inductive GuardState where
  | free
  | claiming
  | waiting
  | held
  deriving DecidableEq, Repr, Inhabited

inductive Need where
  | none
  | travel
  | rehold
  deriving DecidableEq, Repr, Inhabited

/-- The advertised states, in the order of their codes 0 to 3 (section 9.2). -/
inductive Adv where
  | none
  | claim
  | held
  | block
  deriving DecidableEq, Repr, Inhabited

/-- One entry of the zone map (sections 5.1 and 11.2). -/
structure Zone where
  number : Nat
  lo : Int
  hi : Int
  ceiling : Option Int
  peers : List Nat
  deriving DecidableEq, Repr, Inhabited

/-- A guard row (section 5.1). -/
structure GuardRow where
  zone : Zone
  guard : GuardState
  waited : Bool
  need : Need
  /-- claim window: time left while it runs -/
  window : Option Nat
  deriving DecidableEq, Repr, Inhabited

/-- A row as R78 builds it. -/
def GuardRow.fresh (z : Zone) : GuardRow where
  zone := z
  guard := .free
  waited := false
  need := .none
  window := none

/-! ## Peer view (section 6.1) -/

inductive Freshness where
  | unheard
  | fresh
  | stale
  | lost
  deriving DecidableEq, Repr, Inhabited

/-- A zone entry as a peer record keeps it. -/
structure PeerZone where
  zone : Nat
  adv : Adv
  mark : Bool
  waited : Bool
  deriving DecidableEq, Repr, Inhabited

/-- The status fields a peer record keeps, as received. -/
structure PeerStatus where
  mode : Nat
  slewRef : Bool
  rakeRef : Bool
  stopSeen : Bool
  seqState : Nat
  phase : Nat
  layout : Nat
  step : Nat
  slewE : Int
  slewLo : Int
  slewHi : Int
  rakeE : Int
  rakeHi : Int
  zones : List PeerZone
  faultKind : Nat
  alsoSeen : Bool
  deriving DecidableEq, Repr, Inhabited

/-- A peer record. An UNHEARD record has no age and no status. -/
structure PeerRecord where
  station : Nat
  zoneRole : Bool
  scriptRole : Bool
  freshness : Freshness
  age : Option Nat
  status : Option PeerStatus
  deriving DecidableEq, Repr, Inhabited

/-! ## Layout store (section 11.3) and step records (section 7.1) -/

inductive StepOrder where
  | together
  | rakeFirst
  | slewFirst
  deriving DecidableEq, Repr, Inhabited

/-- A step record: each target pair is a target in counts and a speed in units of 256 fsu; `limit` is in seconds. -/
structure StepRecord where
  slew : Option (Int × Nat)
  rake : Option (Int × Nat)
  order : StepOrder
  conds : List (Nat × Nat)
  dwell : Option Nat
  limit : Option Nat
  deriving DecidableEq, Repr, Inhabited

/-- A step cell: not programmed, programmed, or failing its own check (R186). -/
inductive Cell where
  | blank
  | programmed (step : StepRecord)
  | torn
  deriving DecidableEq, Repr, Inhabited

structure SlotHeader where
  layout : Nat
  count : Nat
  crc : BitVec 16
  deriving DecidableEq, Repr, Inhabited

/-- How the store holds a slot (section 11.3). -/
inductive SlotHeld where
  | erased
  | partly
  | programmed
  | locked
  deriving DecidableEq, Repr, Inhabited

/-- A slot. `torn` marks a slot that an ERASE_SLOT or LOCK_SLOT cut short left failing its check of R186; `bad` is the BAD
state that START gave it. -/
structure Slot where
  held : SlotHeld
  header : Option SlotHeader
  cells : List Cell
  torn : Bool
  bad : Bool
  deriving DecidableEq, Repr, Inhabited

/-- A wholly erased slot. -/
def Slot.blank : Slot where
  held := .erased
  header := none
  cells := List.replicate Config.cellCount .blank
  torn := false
  bad := false

/-- The self-timed operations (R182, R184, R185); slots are numbered 1 to 12. `commit` carries the 152 bytes it writes. -/
inductive StoreOp where
  | erase (slot : Nat)
  | program (slot first : Nat) (steps : List StepRecord)
  | finalize (slot layout count : Nat) (check : BitVec 16)
  | lock (slot : Nat)
  | commit (bytes : List Byte)
  deriving DecidableEq, Repr, Inhabited

/-- An operation that runs, its time left, and the place of the reply FIFO reserved for its reply. -/
structure StoreJob where
  op : StoreOp
  left : Nat
  place : Nat
  deriving DecidableEq, Repr, Inhabited

/-- The write-enable latch and the busy state. -/
structure Store where
  latch : Bool
  job : Option StoreJob
  deriving DecidableEq, Repr, Inhabited

/-- R180, R183: both clear after every reset. -/
def Store.cold : Store where
  latch := false
  job := none

/-! ## Commissioning unit (sections 11.1 and 11.2) -/

inductive Mode where
  | start
  | unconfigured
  | operational
  | commission
  | isolated
  deriving DecidableEq, Repr, Inhabited

/-- The axis parameters of the commissioning record (sections 1.1, 2.1, 3.1, 4.1). `homeDir` and `lead` are the slew's. -/
structure AxisParams where
  softLo : Int
  softHi : Int
  mark : Int
  slip : Nat
  homeDir : Dir
  vmax : Nat
  vrated : Nat
  vcreep : Nat
  vjog : Nat
  vhome : Nat
  a : Nat
  aQuick : Nat
  followLimit : Nat
  kp : Nat
  margin : Nat
  lead : Nat
  releaseTime : Nat
  holdTime : Nat
  setTime : Nat
  deriving DecidableEq, Repr, Inhabited

/-- A commissioning record read into its fields, and its bytes 0 to 151. `zoneWait` and `stepLimit` are in seconds. -/
structure Record where
  bytes : List Byte
  slew : AxisParams
  rake : AxisParams
  zones : List Zone
  consoles : List Nat
  zoneWait : Nat
  stepLimit : Nat
  deriving DecidableEq, Repr, Inhabited

/-- The commissioning unit. `record` is the record in force; `prior`, held through START, is the one in force before a warm
restart (R19), and `warm` says that this START follows a warm restart. -/
structure Commissioning where
  mode : Mode
  straps : Nat
  record : Option Record
  prior : Option Record
  warm : Bool
  working : Option (List Byte)
  restartPending : Bool
  /-- time left of the 250 ms of R180 -/
  restartLeft : Option Nat
  /-- the jumper level last read -/
  jumper : Bool
  /-- the strap level last read -/
  strapLevel : BitVec 5
  deriving DecidableEq, Repr, Inhabited

/-- The commissioning unit as a reset leaves it: START, nothing in force. -/
def Commissioning.cold : Commissioning where
  mode := .start
  straps := 0
  record := none
  prior := none
  warm := false
  working := none
  restartPending := false
  restartLeft := none
  jumper := false
  strapLevel := 0

/-! ## Sequencer (section 7.2) -/

inductive SeqState where
  | idle
  | armed
  | running
  | paused
  | complete
  | aborted
  deriving DecidableEq, Repr, Inhabited

inductive Phase where
  | none
  | waitPeers
  | moving
  | dwell
  | done
  deriving DecidableEq, Repr, Inhabited

inductive MoveState where
  | none
  | heldBack
  | requested
  | interrupted
  | arrived
  deriving DecidableEq, Repr, Inhabited

/-- The sequencer. `slot` and `count` are 0 and `armed` is absent in IDLE. -/
structure Sequencer where
  state : SeqState
  layout : Nat
  slot : Nat
  count : Nat
  step : Nat
  phase : Phase
  /-- armed command: console station and command tag -/
  armed : Option (Nat × Nat)
  met : List Bool
  slewMove : MoveState
  rakeMove : MoveState
  /-- hold-off timer: time left while it runs -/
  holdOff : Option Nat
  /-- elapsed time of the step timer and of the dwell timer -/
  stepElapsed : Nat
  dwellElapsed : Nat
  deriving DecidableEq, Repr, Inhabited

/-- R140. -/
def Sequencer.cold : Sequencer where
  state := .idle
  layout := 0
  slot := 0
  count := 0
  step := 0
  phase := .none
  armed := none
  met := []
  slewMove := .none
  rakeMove := .none
  holdOff := none
  stepElapsed := 0
  dwellElapsed := 0

/-! ## Enable monitor (section 8.1) -/

inductive JogMode where
  | position
  | velocity
  deriving DecidableEq, Repr, Inhabited

/-- The active run. -/
inductive Run where
  | none
  | jog (axis : Axis) (dir : Dir) (mode : JogMode)
  | home (axis : Axis)
  deriving DecidableEq, Repr, Inhabited

/-- The enable monitor; `timer` is the enable timer's time left. -/
structure EnableMonitor where
  present : Bool
  timer : Option Nat
  run : Run
  deriving DecidableEq, Repr, Inhabited

/-- R152. -/
def EnableMonitor.cold : EnableMonitor where
  present := false
  timer := none
  run := .none

/-! ## Bus interface (chapter 9) -/

inductive RxState where
  | hunting
  | startCheck
  | data
  | between
  deriving DecidableEq, Repr, Inhabited

/-- The receiver. `bits` are the data bits sampled of the character in progress; `own` says that the frame being received is
the one this station's transmitter drives (R157). -/
structure Receiver where
  state : RxState
  recessive : Nat
  buffer : List Byte
  lastEdge : Nat
  bits : List Bool
  own : Bool
  deriving DecidableEq, Repr, Inhabited

/-- R153, R166. -/
def Receiver.cold : Receiver where
  state := .hunting
  recessive := 0
  buffer := []
  lastEdge := 0
  bits := []
  own := false

/-- What a transmission sends: the status, or the reply of a place of the FIFO. -/
inductive TxSource where
  | status
  | reply (place : Nat)
  deriving DecidableEq, Repr, Inhabited

/-- The transmitter: QUIET, or SENDING with the frame and bit position. -/
inductive Transmitter where
  | quiet
  | sending (source : TxSource) (frame : List Byte) (bit : Nat)
  deriving DecidableEq, Repr, Inhabited

/-- What a RESERVED place keeps of its request: requester station, kind, tag (R164). -/
structure ReplyTo where
  requester : BitVec 5
  kind : Byte
  tag : Byte
  deriving DecidableEq, Repr, Inhabited

/-- A place of the reply FIFO. -/
inductive Place where
  | free
  | reserved (req : ReplyTo)
  | ready (frame : List Byte)
  deriving DecidableEq, Repr, Inhabited

/-- The silence timer: stopped, running, or standing at 250 ms after its report (R161). -/
inductive Silence where
  | stopped
  | running (elapsed : Nat)
  | reported
  deriving DecidableEq, Repr, Inhabited

/-- The outcomes of commands (R165), in the order of their codes 1 to 13. -/
inductive CmdOutcome where
  | accepted
  | done
  | refusedBusy
  | refusedState
  | refusedNoLayout
  | refusedNotReferenced
  | refusedFault
  | refusedActive
  | refusedNoEnable
  | refusedStopLine
  | refusedPeers
  | annulled
  | refusedLimit
  deriving DecidableEq, Repr, Inhabited

/-- The last-outcome slot when it is not empty. -/
structure LastOutcome where
  console : Nat
  tag : Nat
  outcome : CmdOutcome
  deriving DecidableEq, Repr, Inhabited

/-- The bus interface. `readyOrder` lists the READY places in the order they became READY (R159); `nextDue` is the time to
the next due time of the status schedule, while it runs; `firstDue` says that the first due time after START has passed. -/
structure Bus where
  rx : Receiver
  tx : Transmitter
  statusPending : Bool
  place0 : Place
  place1 : Place
  readyOrder : List Nat
  nextDue : Option Nat
  firstDue : Bool
  silence : Silence
  outcome : Option LastOutcome
  deriving DecidableEq, Repr, Inhabited

/-- R166. -/
def Bus.cold : Bus where
  rx := Receiver.cold
  tx := .quiet
  statusPending := false
  place0 := .free
  place1 := .free
  readyOrder := []
  nextDue := none
  firstDue := false
  silence := .stopped
  outcome := none

/-! ## Fault unit (section 10.1) -/

/-- The latching fault kinds, in the order of their codes 1 to 12. -/
inductive FaultKind where
  | following
  | encoderSlip
  | zoneConflict
  | envelopeBreach
  | duplicateStation
  | limit
  | drive
  | eStop
  | homeFail
  | stepTimeout
  | zoneTimeout
  | busSilent
  deriving DecidableEq, Repr, Inhabited

/-- The notices, codes 16 to 19. -/
inductive Notice where
  | peerLost
  | peerAborted
  | targetLimited
  | slotBad
  deriving DecidableEq, Repr, Inhabited

/-- The fields a detector supplies with its report (R168). -/
structure FaultFields where
  axis : Option Axis
  zone : Option Nat
  peer : Option Nat
  deriving DecidableEq, Repr, Inhabited

/-- The fault record (R168). `place` is the pair of layout and step index. -/
structure FaultRecord where
  kind : FaultKind
  fields : FaultFields
  place : Option (Nat × Nat)
  slewE : Int
  rakeE : Int
  deriving DecidableEq, Repr, Inhabited

/-- The fault unit. The also-seen set is a list in the order of the kind codes without repeats. -/
structure FaultUnit where
  record : Option FaultRecord
  alsoSeen : List FaultKind
  sentSinceSilence : Bool
  notice : Option Notice
  drivesStop : Bool
  /-- the STOP line as sensed: true is ASSERTED -/
  lineAsserted : Bool
  deriving DecidableEq, Repr, Inhabited

/-- R177. -/
def FaultUnit.cold (line : Bool) : FaultUnit where
  record := none
  alsoSeen := []
  sentSinceSilence := false
  notice := none
  drivesStop := false
  lineAsserted := line

/-! ## Zone guard table -/

/-- The guard rows and the elapsed time of the zone wait timer (section 5.8). -/
structure ZoneGuard where
  rows : List GuardRow
  waitElapsed : Nat
  deriving DecidableEq, Repr, Inhabited

/-- R102. -/
def ZoneGuard.cold : ZoneGuard where
  rows := []
  waitElapsed := 0

/-! ## What survives a reset -/

/-- The nonvolatile content and the part's identity: the stored commissioning record (154 bytes), whether a reset tore it
(R178), the 12 slots, and the factory-unique unit tag. -/
structure Nonvolatile where
  unitTag : BitVec 24
  record : List Byte
  recordTorn : Bool
  slots : List Slot
  deriving DecidableEq, Repr, Inhabited

end Sys2Proof.Machine
end

