-- ==== Sys2Proof/Machine/Arith.lean ====
section
/-! DEFINITION. The exact arithmetic of the manual: saturation at the position range, the rounding words of 00_scope.md,
the braking distance, bit fields as numbers. -/

namespace Sys2Proof.Machine

/-- Saturation at the ends of the position range (R13, R26, R56, R57, R62). -/
def satPos (x : Int) : Int := max posMin (min posMax x)

/-- Clamp into [lo, hi]. -/
def clampInt (lo hi x : Int) : Int := max lo (min hi x)

/-- The braking distance B(|V|) = floor(V² / (2 · A · 65,536)) (section 2.1). -/
def brakeDistance (a speed : Nat) : Nat := speed * speed / (2 * a * 65536)

/-- ceil(|V| / 65,536): one tick's travel rounded up (R56). -/
def tickTravel (speed : Nat) : Nat := (speed + 65535) / 65536

/-- Nearest integer to `n / d`, ties away from zero (00_scope.md, Rounding). -/
def nearest (n : Int) (d : Nat) : Int := n.sign * ((2 * n.natAbs + d) / (2 * d) : Nat)

/-- `n / d` truncated toward zero. -/
def truncated (n : Int) (d : Int) : Int := Int.tdiv n d

/-- The sign of a direction. -/
def dirSign : Dir → Int
  | .neg => -1
  | .pos => 1

def dirOpposite : Dir → Dir
  | .neg => .pos
  | .pos => .neg

/-- The direction of a non-zero number. -/
def dirOf (x : Int) : Option Dir := if x = 0 then none else if x < 0 then some .neg else some .pos

/-- A magnitude given a sign. -/
def signed (s : Int) (mag : Nat) : Int := s * (mag : Int)

/-- A signed count as the 3-byte two's complement field of a frame (section 9.2). -/
def toField24 (x : Int) : BitVec 24 := BitVec.ofInt 24 x

/-- A number as one byte. -/
def toByte (n : Nat) : Byte := BitVec.ofNat 8 n

/-- The other axis. -/
def otherAxis : Axis → Axis
  | .slew => .rake
  | .rake => .slew

end Sys2Proof.Machine
end

