-- ==== Sys2Proof/Machine/Operands.lean ====
section
/-! DEFINITION. The operand forms: axis and direction bytes (section 9.2), target sets (00_scope.md, Sets and lists), step
forms (section 9.2, R184), and the fields and range checks of the commissioning record (section 11.2, R181). -/

namespace Sys2Proof.Machine

/-! ## Command operands -/

/-- The axis byte: 0 slew, 1 rake, otherwise undefined. -/
def axisOfByte (b : Byte) : Option Axis := if b = 0 then some .slew else if b = 1 then some .rake else none

/-- The direction byte: 0 positive, 1 negative, otherwise undefined. -/
def dirOfByte (b : Byte) : Option Dir := if b = 0 then some .pos else if b = 1 then some .neg else none

/-- A target set includes a station: bit n stands for station n and bit 0 is unused. -/
def inTargets (targets : BitVec 32) (station : Nat) : Bool := decide (station ≠ 0) && targets.getLsbD station

/-! ## Step forms -/

def StepOrder.code : StepOrder → Nat
  | .together => 0
  | .rakeFirst => 1
  | .slewFirst => 2

def StepOrder.ofCode : Nat → Option StepOrder
  | 0 => some .together
  | 1 => some .rakeFirst
  | 2 => some .slewFirst
  | _ => none

/-- Reads an optional pair of a step form: target (3, signed) and speed (2). -/
def takePair (present : Bool) (bs : List Byte) : Option (Option (Int × Nat) × List Byte) :=
  if present then
    match bs with
    | a :: b :: c :: d :: e :: rest => some (some ((join24 a b c).toInt, (join16 d e).toNat), rest)
    | _ => none
  else some (none, bs)

/-- Reads an optional 2-byte field. -/
def takeWord (present : Bool) (bs : List Byte) : Option (Option Nat × List Byte) :=
  if present then
    match bs with
    | a :: b :: rest => some (some (join16 a b).toNat, rest)
    | _ => none
  else some (none, bs)

/-- Reads the peer conditions: their stations, then, when there is at least one, the byte of their steps. -/
def takeConds (n : Nat) (bs : List Byte) : Option (List (Nat × Nat) × List Byte) :=
  match n, bs with
  | 0, bs => some ([], bs)
  | 1, a :: k :: rest => some ([(a.toNat, (k.extractLsb' 4 4).toNat)], rest)
  | 2, a :: b :: k :: rest =>
    some ([(a.toNat, (k.extractLsb' 4 4).toNat), (b.toNat, (k.extractLsb' 0 4).toNat)], rest)
  | _, _ => none

/-- R184: the checks of a step form beside its shape: condition stations 1..31, dwell at most 10,000, step time limit
10..600. -/
def StepRecord.valid (r : StepRecord) : Bool :=
  r.conds.all (fun c => decide (1 ≤ c.1 ∧ c.1 ≤ 31)) &&
    (match r.dwell with | some d => decide (d ≤ 10000) | none => true) &&
    (match r.limit with | some l => decide (10 ≤ l ∧ l ≤ 600) | none => true)

/-- Reads one valid step form and what follows it; order 3 and a condition count of 3 are not valid (section 9.2). -/
def takeStep (bs : List Byte) : Option (StepRecord × List Byte) :=
  match bs with
  | [] => none
  | fl :: r0 =>
    (StepOrder.ofCode (fl.extractLsb' 2 2).toNat).bind fun order =>
    (takePair (fl.getLsbD 7) r0).bind fun sl =>
    (takePair (fl.getLsbD 6) sl.2).bind fun rk =>
    (takeConds (fl.extractLsb' 0 2).toNat rk.2).bind fun cs =>
    (takeWord (fl.getLsbD 5) cs.2).bind fun dw =>
    (takeWord (fl.getLsbD 4) dw.2).bind fun lim =>
      let r : StepRecord :=
        { slew := sl.1, rake := rk.1, order := order, conds := cs.1, dwell := dw.1, limit := lim.1 }
      if r.valid then some (r, lim.2) else none

/-- One or two step forms that fill the bytes exactly (R184). -/
def stepForms (bs : List Byte) : Option (List StepRecord) :=
  match takeStep bs with
  | none => none
  | some (a, []) => some [a]
  | some (a, rest) =>
    match takeStep rest with
    | some (b, []) => some [a, b]
    | _ => none

def pairBytes : Option (Int × Nat) → List Byte
  | none => []
  | some (t, v) => bytes24 (toField24 t) ++ bytes16 (BitVec.ofNat 16 v)

def wordBytes : Option Nat → List Byte
  | none => []
  | some w => bytes16 (BitVec.ofNat 16 w)

def condBytes (cs : List (Nat × Nat)) : List Byte :=
  if cs.isEmpty then []
  else cs.map (fun c => toByte c.1) ++ [toByte (16 * (cs.getD 0 (0, 0)).2 + (cs.getD 1 (0, 0)).2)]

/-- The step form of a step (section 9.2), as READ_SLOT returns it and as the CRC-16 of a slot takes it (R185). -/
def StepRecord.form (r : StepRecord) : List Byte :=
  toByte ((if r.slew.isSome then 128 else 0) + (if r.rake.isSome then 64 else 0) + (if r.dwell.isSome then 32 else 0) +
      (if r.limit.isSome then 16 else 0) + 4 * r.order.code + r.conds.length) ::
    (pairBytes r.slew ++ pairBytes r.rake ++ condBytes r.conds ++ wordBytes r.dwell ++ wordBytes r.limit)

/-! ## The commissioning record -/

/-- One byte of a record, as a number. -/
def u8 (bs : List Byte) (i : Nat) : Nat := (bs.getD i 0).toNat

/-- Two bytes, most significant first. -/
def u16 (bs : List Byte) (i : Nat) : Nat := 256 * u8 bs i + u8 bs (i + 1)

/-- Three bytes, unsigned. -/
def u24 (bs : List Byte) (i : Nat) : Nat := 65536 * u8 bs i + 256 * u8 bs (i + 1) + u8 bs (i + 2)

/-- Three bytes, two's complement. -/
def s24 (bs : List Byte) (i : Nat) : Int := (join24 (bs.getD i 0) (bs.getD (i + 1) 0) (bs.getD (i + 2) 0)).toInt

/-- The slew block: bytes 0 to 42. -/
def slewParams (bs : List Byte) : AxisParams where
  softLo := s24 bs 0
  softHi := s24 bs 3
  mark := s24 bs 6
  slip := u8 bs 9
  homeDir := if u8 bs 10 = 0 then .pos else .neg
  vmax := u24 bs 11
  vrated := u24 bs 14
  vcreep := u24 bs 17
  vjog := u24 bs 20
  vhome := u24 bs 23
  a := u16 bs 26
  aQuick := u16 bs 28
  followLimit := u16 bs 30
  kp := u8 bs 32
  margin := u16 bs 33
  lead := u16 bs 35
  releaseTime := u16 bs 37
  holdTime := u16 bs 39
  setTime := u16 bs 41

/-- The rake block: bytes 43 to 82, without home direction and claim lead; a rake search moves first down (section 1.5). -/
def rakeParams (bs : List Byte) : AxisParams where
  softLo := s24 bs 43
  softHi := s24 bs 46
  mark := s24 bs 49
  slip := u8 bs 52
  homeDir := .neg
  vmax := u24 bs 53
  vrated := u24 bs 56
  vcreep := u24 bs 59
  vjog := u24 bs 62
  vhome := u24 bs 65
  a := u16 bs 68
  aQuick := u16 bs 70
  followLimit := u16 bs 72
  kp := u8 bs 74
  margin := u16 bs 75
  lead := 0
  releaseTime := u16 bs 77
  holdTime := u16 bs 79
  setTime := u16 bs 81

/-- Where entry `i` of the zone map begins. -/
abbrev zoneAt (i : Nat) : Nat := 84 + 15 * i

/-- Entry `i` of the zone map; sharing peers beyond the peer count are not read. -/
def zoneEntry (bs : List Byte) (i : Nat) : Zone where
  number := u8 bs (zoneAt i)
  lo := s24 bs (zoneAt i + 1)
  hi := s24 bs (zoneAt i + 4)
  ceiling := if u8 bs (zoneAt i + 7) = 1 then some (s24 bs (zoneAt i + 8)) else none
  peers := (List.range (min 3 (u8 bs (zoneAt i + 11)))).map (fun j => u8 bs (zoneAt i + 12 + j))

/-- Bytes 0 to 151 read as a record (section 11.2); entries and places beyond their counts are not read. -/
def readRecord (bs : List Byte) : Record where
  bytes := bs.take 152
  slew := slewParams bs
  rake := rakeParams bs
  zones := (List.range (min 4 (u8 bs 83))).map (zoneEntry bs)
  consoles := (List.range (min 4 (u8 bs 144))).map (fun j => u8 bs (145 + j))
  zoneWait := u8 bs 149
  stepLimit := u16 bs 150

/-- The distinct members of a list, first occurrences kept. -/
def distinct : List Nat → List Nat
  | [] => []
  | x :: xs => if x ∈ distinct xs then distinct xs else x :: distinct xs

/-- The distinct sharing peers of the map: the zone peers. -/
def Record.zonePeers (r : Record) : List Nat := distinct (r.zones.flatMap (·.peers))

/-! ### Range checks (R181) -/

/-- A check of one field: the field's offset, and whether it holds. -/
abbrev FieldCheck := Nat × Bool

/-- A relation between fields: the offsets it ties, and whether it holds. -/
abbrev Relation := List Nat × Bool

/-- Where an axis block keeps the fields its checks read. -/
structure AxisLayout where
  base : Nat
  slip : Nat
  speeds : Nat
  accel : Nat
  follow : Nat
  margin : Nat
  times : Nat

def slewLayout : AxisLayout :=
  { base := 0, slip := 9, speeds := 11, accel := 26, follow := 30, margin := 33, times := 37 }

def rakeLayout : AxisLayout :=
  { base := 43, slip := 52, speeds := 53, accel := 68, follow := 72, margin := 75, times := 77 }

def between (lo hi x : Nat) : Bool := decide (lo ≤ x ∧ x ≤ hi)

/-- Field ranges of an axis (sections 1.1, 2.1, 3.1, 4.1). -/
def axisFieldChecks (l : AxisLayout) (bs : List Byte) : List FieldCheck :=
  (l.slip, between 1 255 (u8 bs l.slip)) ::
    ([0, 3, 6, 9, 12].map (fun d => (l.speeds + d, between 1 8388607 (u24 bs (l.speeds + d)))) ++
      [(l.accel, between 1 65535 (u16 bs l.accel)), (l.accel + 2, between 1 65535 (u16 bs (l.accel + 2))),
        (l.follow, between 1 65535 (u16 bs l.follow)), (l.margin, between 0 4095 (u16 bs l.margin))] ++
      [0, 2, 4].map (fun d => (l.times + d, between 0 2000 (u16 bs (l.times + d)))))

/-- Relations of an axis (R181). -/
def axisRelations (l : AxisLayout) (bs : List Byte) : List Relation :=
  let vmax := u24 bs l.speeds
  [([l.base, l.base + 3], decide (s24 bs l.base < s24 bs (l.base + 3))),
    ([l.base, l.base + 3, l.base + 6],
      decide (s24 bs l.base ≤ s24 bs (l.base + 6) ∧ s24 bs (l.base + 6) ≤ s24 bs (l.base + 3))),
    ([l.speeds, l.speeds + 6], decide (u24 bs (l.speeds + 6) ≤ vmax)),
    ([l.speeds, l.speeds + 9], decide (u24 bs (l.speeds + 9) ≤ vmax)),
    ([l.speeds, l.speeds + 12], decide (u24 bs (l.speeds + 12) ≤ vmax)),
    ([l.speeds + 6, l.speeds + 9], decide (u24 bs (l.speeds + 6) ≤ u24 bs (l.speeds + 9))),
    ([l.accel, l.accel + 2], decide (u16 bs l.accel ≤ u16 bs (l.accel + 2)))]

/-- The offset of the field of section 11.2 that a byte of the zone map or of the console list lies in: the three sharing
peers of an entry are one field, and so are the four console stations (R182 names a field by its offset). -/
def fieldOf (o : Nat) : Nat :=
  if 145 ≤ o then 145 else if 12 ≤ (o - 84) % 15 then o - ((o - 84) % 15 - 12) else o

/-- The offsets of the sharing peers of entry `i` that are read. -/
def peerOffsets (bs : List Byte) (i : Nat) : List Nat :=
  (List.range (min 3 (u8 bs (zoneAt i + 11)))).map (fun j => zoneAt i + 12 + j)

/-- Field ranges of a zone map entry; `own` is the station's own number. -/
def zoneFieldChecks (own : Nat) (bs : List Byte) (i : Nat) : List FieldCheck :=
  [(zoneAt i, between 1 60 (u8 bs (zoneAt i))), (zoneAt i + 7, between 0 1 (u8 bs (zoneAt i + 7))),
    (zoneAt i + 11, between 1 3 (u8 bs (zoneAt i + 11)))] ++
  (peerOffsets bs i).map (fun o => (fieldOf o, between 1 31 (u8 bs o) && !decide (u8 bs o = own)))

/-- The pairs of a list, in order. -/
def pairsOf : List Nat → List (Nat × Nat)
  | [] => []
  | x :: xs => xs.map (fun y => (x, y)) ++ pairsOf xs

/-- The bytes at two offsets differ, as a relation of the fields they lie in. -/
def differ (bs : List Byte) (o : Nat × Nat) : Relation := ([fieldOf o.1, fieldOf o.2], !decide (u8 bs o.1 = u8 bs o.2))

/-- The relations of the zone map and the console list (R181). -/
def mapRelations (bs : List Byte) : List Relation :=
  let zs := List.range (min 4 (u8 bs 83))
  let cs := (List.range (min 4 (u8 bs 144))).map (fun j => 145 + j)
  let peers := zs.flatMap (peerOffsets bs)
  zs.map (fun i => ([zoneAt i + 1, zoneAt i + 4], decide (s24 bs (zoneAt i + 1) < s24 bs (zoneAt i + 4)))) ++
    (pairsOf (zs.map zoneAt)).map (differ bs) ++
    zs.flatMap (fun i => (pairsOf (peerOffsets bs i)).map (differ bs)) ++
    [(peers.map fieldOf, decide ((distinct (peers.map (u8 bs))).length ≤ 6))] ++
    (pairsOf cs).map (differ bs) ++
    cs.flatMap (fun c => peers.map (fun p => differ bs (p, c)))

/-- Every single-field check of a record for a station number. -/
def fieldChecks (own : Nat) (bs : List Byte) : List FieldCheck :=
  axisFieldChecks slewLayout bs ++ [(10, between 0 1 (u8 bs 10))] ++ axisFieldChecks rakeLayout bs ++
    [(83, between 0 4 (u8 bs 83))] ++ (List.range (min 4 (u8 bs 83))).flatMap (zoneFieldChecks own bs) ++
    [(144, between 1 4 (u8 bs 144))] ++
    (List.range (min 4 (u8 bs 144))).map
      (fun j => (fieldOf (145 + j), between 1 31 (u8 bs (145 + j)) && !decide (u8 bs (145 + j) = own))) ++
    [(149, between 2 120 (u8 bs 149)), (150, between 10 600 (u16 bs 150))]

/-- Every relation of a record. -/
def relations (bs : List Byte) : List Relation :=
  axisRelations slewLayout bs ++ axisRelations rakeLayout bs ++ mapRelations bs

/-- A record passes its range checks (R181) for a station number. -/
def recordOk (own : Nat) (bs : List Byte) : Bool :=
  (fieldChecks own bs).all (·.2) && (relations bs).all (·.2)

/-- The offsets found wrong: each failing field, and for each failing relation one of the fields it ties (log entry 6). -/
def wrongOffsets (own : Nat) (bs : List Byte) : List Nat :=
  ((fieldChecks own bs).filter (fun c => !c.2)).map (·.1) ++
    ((relations bs).filter (fun c => !c.2)).map (fun c => c.1.getD (Config.blamedField c.1 % c.1.length) 0)

/-- The offset of the first field in record order found wrong (R182). -/
def firstWrong (own : Nat) (bs : List Byte) : Nat := (wrongOffsets own bs).foldl min 151

end Sys2Proof.Machine
end

