-- ==== Sys2Proof/Machine/State.lean ====
section
/-! DEFINITION. The state of the block, the reasons a step could stop, and the state after reset. -/

namespace Sys2Proof.Machine

/-- Faults of the MODEL (not the T240's own fault kinds, which are state and stop nothing here). The manual gives every
command an effect in every state, so no meaning raises one and the type has no constructor. Safe. -/
inductive Fault where
  deriving DecidableEq, Repr

/-- Refusals of the model. -/
inductive Refusal where
  /-- raised only by an arm of `exec` whose command has no meaning yet (there is none left). Safe: the run stops. -/
  | notModelled (mnemonic : String)
  deriving DecidableEq, Repr

/-- The T240, and the queue of the commands that wait to reach it. -/
structure State where
  /-- commands waiting, first in, first out -/
  pending : List Instr
  /-- the part is held in reset (R54, R18) -/
  inReset : Bool
  nv : Nonvolatile
  comm : Commissioning
  store : Store
  slew : AxisUnit
  rake : AxisUnit
  /-- time left to the next due profile tick (R20) -/
  tickLeft : Nat
  env : Envelopes
  zones : ZoneGuard
  peers : List PeerRecord
  seq : Sequencer
  mon : EnableMonitor
  bus : Bus
  fault : FaultUnit
  /-- local stop chain input: true is open -/
  chainOpen : Bool
  /-- the model's own: counts the uses of a free value (log entry 4) -/
  fresh : Nat
  deriving DecidableEq, Repr, Inhabited

/-- Every block at its cold-reset value, over given nonvolatile content, with the pin levels first read. -/
def State.ofCold (nv : Nonvolatile) (pins : Pins) (fresh : Nat) (pending : List Instr) : State where
  pending := pending
  inReset := false
  nv := nv
  comm := Commissioning.cold
  store := Store.cold
  slew := AxisUnit.cold pins.slewA pins.slewB pins.slewNeg pins.slewPos pins.slewReady false
  rake := AxisUnit.cold pins.rakeA pins.rakeB pins.rakeNeg pins.rakePos pins.rakeReady pins.rakeSwitch
  tickLeft := Config.tickPeriod
  env := Envelopes.cold
  zones := ZoneGuard.cold
  peers := []
  seq := Sequencer.cold
  mon := EnableMonitor.cold
  bus := Bus.cold
  fault := FaultUnit.cold pins.stopLine
  chainOpen := pins.chainOpen
  fresh := fresh

/-- The levels of the pins at the model's reset (log entry 2, DESIGN CHOICE): everything low, open or released, no limit
ACTIVE, the local stop chain closed. -/
def Pins.atReset : Pins where
  slewA := false
  slewB := false
  rakeA := false
  rakeB := false
  slewNeg := false
  slewPos := false
  rakeNeg := false
  rakePos := false
  rakeSwitch := false
  slewReady := false
  rakeReady := false
  chainOpen := false
  stopLine := false

/-- A part as it comes before commissioning (log entry 1, DESIGN CHOICE): stored record all zeros, which fails its CRC;
every slot erased; unit tag 1. -/
def Nonvolatile.factory : Nonvolatile where
  unitTag := 1#24
  record := List.replicate 154 0#8
  recordTorn := false
  slots := List.replicate Config.slotCount Slot.blank

/-- The block right after a cold reset: START, every block at its cold-reset value (R18, R37, R54, R76, R102, R116, R140,
R152, R166, R177, R180), nothing queued. -/
def State.reset : State := State.ofCold Nonvolatile.factory Pins.atReset 0 []

end Sys2Proof.Machine
end

