-- ==== Sys2Proof/Machine/Ops.lean ====
section
/-! DEFINITION. The named operations that every family shares: access to an axis and to the parameters in force, the
requests for an immediate status, the last-outcome slot, the last notice, the reference state, the zone wait timer, and
how a command reaches a part that may be held in reset. -/

namespace Sys2Proof.Machine

/-! ## Axes and parameters -/

def State.axis (s : State) : Axis → AxisUnit
  | .slew => s.slew
  | .rake => s.rake

def State.setAxis (s : State) (x : Axis) (a : AxisUnit) : State :=
  match x with
  | .slew => { s with slew := a }
  | .rake => { s with rake := a }

/-- The parameters of an axis in a record. -/
def Record.axis (r : Record) : Axis → AxisParams
  | .slew => r.slew
  | .rake => r.rake

/-- The parameters in force for an axis. Without a record in force no rule reads them but R6 and R7, which take
`State.markPosition` and `State.slipTolerance`. -/
def State.params (s : State) (x : Axis) : AxisParams :=
  match s.comm.record with
  | some r => r.axis x
  | none => default

/-- This station's number: the straps as START read them. -/
def State.station (s : State) : Nat := s.comm.straps

/-- The end limit input of an axis in a direction (R9). -/
def AxisUnit.limit (a : AxisUnit) : Dir → Bool
  | .neg => a.negLimit
  | .pos => a.posLimit

def AxisUnit.setLimit (a : AxisUnit) (d : Dir) (active : Bool) : AxisUnit :=
  match d with
  | .neg => { a with negLimit := active }
  | .pos => { a with posLimit := active }

def AxisUnit.isOff (a : AxisUnit) : Bool := decide (a.state = .off)

/-- OFF or FAULTED: at rest with the drive disabled (R173). -/
def AxisUnit.atRest (a : AxisUnit) : Bool := decide (a.state = .off ∨ a.state = .faulted)

/-! ## Modes -/

/-- The modes in which the station sends (R166): UNCONFIGURED with station number 1..31, OPERATIONAL, COMMISSION. -/
def State.sends (s : State) : Bool :=
  match s.comm.mode with
  | .unconfigured => decide (s.comm.straps ≠ 0)
  | .operational => true
  | .commission => true
  | .start => false
  | .isolated => false

/-! ## Bus hand-offs -/

/-- The queue has a frame that may be sent (R159): a status after the first due time, or a READY reply. -/
def Bus.sendable (b : Bus) : Bool := (b.statusPending && b.firstDue) || !b.readyOrder.isEmpty

/-- R161: the silence timer starts from zero when the queue comes to hold a sendable frame while the timer is stopped. -/
def Bus.startSilence (b : Bus) : Bus :=
  if b.sendable ∧ b.silence = .stopped then { b with silence := .running 0 } else b

/-- A request for an immediate status (R160) sets the status pending flag, in every mode. In the modes that send nothing no frame
is started for it and the silence timer stays stopped (R161, R166). -/
def State.requestStatus (s : State) : State :=
  let b : Bus := { s.bus with statusPending := true }
  { s with bus := if s.sends then b.startSilence else b }

/-- A new outcome in the last-outcome slot, with its request for an immediate status (R165). -/
def State.giveOutcome (s : State) (console tag : Nat) (o : CmdOutcome) : State :=
  ({ s with bus := { s.bus with outcome := some { console := console, tag := tag, outcome := o } } } : State).requestStatus

/-- A notice replaces the last notice (R174). -/
def State.raiseNotice (s : State) (n : Notice) : State := { s with fault := { s.fault with notice := some n } }

/-! ## Reference state -/

/-- R8: a change of an axis's reference state requests an immediate status; no change requests nothing. -/
def State.setReferenced (s : State) (x : Axis) (r : Bool) : State :=
  if (s.axis x).referenced = r then s else (s.setAxis x { s.axis x with referenced := r }).requestStatus

/-! ## Zone wait timer (R99) -/

/-- Some row with need TRAVEL is CLAIMING or WAITING. -/
def ZoneGuard.travelAsking (z : ZoneGuard) : Bool :=
  z.rows.any (fun r => decide (r.need = .travel) && (decide (r.guard = .claiming) || decide (r.guard = .waiting)))

/-- R99: the timer is held while PAUSED, runs while a TRAVEL row is asking, and is otherwise reset. -/
def State.judgeZoneWait (s : State) : State :=
  if s.seq.state = .paused ∨ s.zones.travelAsking then s else { s with zones := { s.zones with waitElapsed := 0 } }

/-- The zone wait timer runs (R99). -/
def State.zoneWaitRuns (s : State) : Bool := !decide (s.seq.state = .paused) && s.zones.travelAsking

/-! ## How a command reaches the part -/

/-- While the part is held in reset nothing is counted and nothing else happens (R18, R54); otherwise the command has its
effect. -/
def live (f : State → State) (s : State) : Host.Outcome State Fault Refusal :=
  if s.inReset then .next s else .next (f s)

end Sys2Proof.Machine
end

