-- ==== Sys2Proof/Machine/Motion.lean ====
section
/-! DEFINITION. The handshake and the stops of an axis: the outputs of each axis state (R39), the reports a requester gets,
stop orders (R31, R43, R48), and the entries into OFF, SETTLING, STOPPING and FAULTED (R46, R50). -/

namespace Sys2Proof.Machine

/-! ## Axis states and their outputs -/

/-- Drive enable output of an axis state (R39). -/
def AxisState.enables : AxisState → Bool
  | .off => false
  | .starting _ => true
  | .tracking _ => true
  | .stopping _ => true
  | .settling => true
  | .faulted => false

/-- Brake-release output of an axis state (R39); on means the brake is lifted. -/
def AxisState.releases : AxisState → Bool
  | .off => false
  | .starting .awaitReady => false
  | .starting .releasing => true
  | .tracking _ => true
  | .stopping _ => true
  | .settling => false
  | .faulted => false

/-- R39: an output changes at the event that changes the state. The timer is the period the new state times. -/
def AxisUnit.enter (a : AxisUnit) (st : AxisState) (timer : Option Nat) : AxisUnit :=
  { a with state := st, timer := timer, driveEnable := st.enables, brakeRelease := st.releases }

/-- The profile of an axis at rest on its count (R36): P set to E, F and V zero, mode none. -/
def AxisUnit.rest (a : AxisUnit) : AxisUnit :=
  { a with p := a.e, f := 0, v := 0, mode := none, requester := none }

/-- Entry into OFF (R46, R43): drive enable off, timer stopped, reference 0 (R53), P set to E (R36). -/
def AxisUnit.toOff (a : AxisUnit) : AxisUnit := { a.rest.enter .off none with speedRef := 0 }

/-- Entry into FAULTED (R50): both outputs off, reference 0, timer, hold, stop order, mode and pending request dropped,
P set to E. -/
def AxisUnit.toFaulted (a : AxisUnit) : AxisUnit := { a.rest.enter .faulted none with speedRef := 0, pending := none }

/-- Entry into SETTLING (R46): brake applied, drive still enabled, reference 0, P kept, V 0. A brake set time of 0 gives
OFF at the same event. -/
def AxisUnit.toSettling (setTime : Nat) (a : AxisUnit) : AxisUnit :=
  if setTime = 0 then a.toOff
  else { a.enter .settling (some setTime) with speedRef := 0, v := 0, mode := none, requester := none }

/-- The hold of the post-motion sequence (R44): TRACKING, V 0, mode none, no stop order, the timer on the hold time. -/
def AxisUnit.toHold (holdTime : Nat) (a : AxisUnit) : AxisUnit :=
  { a.enter (.tracking true) (some holdTime) with v := 0, mode := none, requester := none }

/-! ## Reports to a requester -/

/-- The move state of an axis in the sequencer (section 7.2). -/
def Sequencer.move (q : Sequencer) : Axis → MoveState
  | .slew => q.slewMove
  | .rake => q.rakeMove

def Sequencer.setMove (q : Sequencer) (x : Axis) (m : MoveState) : Sequencer :=
  match x with
  | .slew => { q with slewMove := m }
  | .rake => { q with rakeMove := m }

/-- RUNNING or PAUSED: a conversion in progress. -/
def Sequencer.converting (q : Sequencer) : Bool := decide (q.state = .running ∨ q.state = .paused)

/-- The axis of the active run (section 8.1). -/
def Run.axis : Run → Option Axis
  | .none => Option.none
  | .jog x _ _ => some x
  | .home x => some x

/-- A motion-stopped report to the block that asked for the motion.
Sequencer: a REQUESTED axis becomes INTERRUPTED while RUNNING or PAUSED (R129, R134). Enable monitor: the jog of the axis
ends (R148). Position unit: it passes the report on and the homing run ends with its leg (R17, R148), but for the report of
the stop it ordered at the preset (R13). -/
def State.tellStopped (s : State) (x : Axis) : Option Requester → State
  | none => s
  | some .sequencer =>
    if s.seq.converting ∧ s.seq.move x = .requested then { s with seq := s.seq.setMove x .interrupted } else s
  | some .enableMonitor =>
    match s.mon.run with
    | .jog y _ _ => if y = x then { s with mon := { s.mon with run := .none } } else s
    | _ => s
  | some .positionUnit =>
    if (s.axis x).leg = some .stopping then s
    else
      let s1 := s.setAxis x { s.axis x with leg := none }
      if s1.mon.run = .home x then { s1 with mon := { s1.mon with run := .none } } else s1

/-- The end of a stop, reported to the block that ordered it. A search in its STOPPING leg counts it as its completion: the
leg becomes none and the enable monitor is told that the homing run has ended (R17, R32, R148). -/
def State.stopEnded (s : State) (x : Axis) : State :=
  if (s.axis x).leg = some .stopping then
    let s1 := s.setAxis x { s.axis x with leg := none }
    if s1.mon.run = .home x then { s1 with mon := { s1.mon with run := .none } } else s1
  else s

/-! ## Stop orders -/

/-- The block that gave the pending request, if one is pending. -/
def AxisUnit.pendingAsker (a : AxisUnit) : Option Requester := a.pending.map (·.asker)

/-- STOPPING under an order meets another (R31): QUICK raises, CONTROLLED leaves it. -/
def StopKind.meet : StopKind → StopKind → StopKind
  | .quick, _ => .quick
  | .controlled, k => k

/-- A stop order taken by the motion core for an axis.
TRACKING with hold not running enters STOPPING (R31); STOPPING drops its pending request and keeps or raises its order
(R31, R48); STARTING cancels the start, to OFF from AWAIT_READY and to SETTLING from RELEASING (R43); in OFF, SETTLING,
FAULTED and in TRACKING with hold running only a pending request is dropped (R48). -/
def State.stopAxis (s : State) (x : Axis) (k : StopKind) : State :=
  let a := s.axis x
  match a.state with
  | .tracking false =>
    (s.setAxis x { a.enter (.stopping k) none with mode := none, requester := none }).tellStopped x a.requester
  | .stopping k0 =>
    (s.setAxis x { a with state := .stopping (k0.meet k), pending := none }).tellStopped x a.pendingAsker
  | .starting .awaitReady =>
    ((s.setAxis x { a.toOff with pending := none }).tellStopped x a.pendingAsker).stopEnded x
  | .starting .releasing =>
    ((s.setAxis x { a.toSettling (s.params x).setTime with pending := none }).tellStopped x a.pendingAsker).stopEnded x
  | .tracking true => ((s.setAxis x { a with pending := none }).tellStopped x a.pendingAsker).stopEnded x
  | .off => ((s.setAxis x { a with pending := none }).tellStopped x a.pendingAsker).stopEnded x
  | .settling => ((s.setAxis x { a with pending := none }).tellStopped x a.pendingAsker).stopEnded x
  | .faulted => ((s.setAxis x { a with pending := none }).tellStopped x a.pendingAsker).stopEnded x

/-- A stop of both axes. -/
def State.stopBoth (s : State) (k : StopKind) : State := (s.stopAxis .rake k).stopAxis .slew k

/-- Entry of an axis into FAULTED, with its requester told (R50, R41). An axis already FAULTED stays so. -/
def State.faultAxis (s : State) (x : Axis) : State :=
  let a := s.axis x
  ((s.setAxis x a.toFaulted).tellStopped x a.requester).tellStopped x a.pendingAsker

end Sys2Proof.Machine
end

