-- ==== Sys2Proof/Machine/Endings.lean ====
section
/-! DEFINITION. How a conversion, a jog and a homing run end, whatever ends them: the drop of the script peers (R107), the
entries into IDLE and ABORTED (R124, R125, R136, R137), the end of the active run (R148, R150), and the drop of the zone
guard's claims at a mode change (R101). -/

namespace Sys2Proof.Machine

/-- R107: records whose only role is SCRIPT go, and the role SCRIPT goes from the others. -/
def dropScript (ps : List PeerRecord) : List PeerRecord :=
  (ps.filter (·.zoneRole)).map (fun r => { r with scriptRole := false })

/-- Entry into IDLE from ARMED (R124, R125): layout 0, step 0, phase none, armed command and hold-off dropped. -/
def State.seqToIdle (s : State) : State :=
  ({ s with
      seq := { s.seq with
        state := .idle, layout := 0, slot := 0, count := 0, step := 0, phase := .none, armed := none, holdOff := none }
      peers := dropScript s.peers } : State).requestStatus

/-- Entry into ABORTED of a conversion in progress (R136, R137): layout and step kept, phase none, timers stopped. -/
def State.seqToAborted (s : State) : State :=
  (({ s with
      seq := { s.seq with state := .aborted, phase := .none, holdOff := none }
      peers := dropScript s.peers } : State).requestStatus).judgeZoneWait

/-- A CANCEL, a STOP frame, the STOP line or a fault meets the sequencer: a conversion in progress is aborted, an ARMED one
returns to IDLE, with `armedOutcome`, if any, against the armed command (R125, R137); other states are unchanged. -/
def State.endConversion (s : State) (armedOutcome : Option CmdOutcome) : State :=
  match s.seq.state with
  | .running => s.seqToAborted
  | .paused => s.seqToAborted
  | .armed =>
    match s.seq.armed, armedOutcome with
    | some (c, t), some o => s.seqToIdle.giveOutcome c t o
    | _, _ => s.seqToIdle
  | .idle => s
  | .complete => s
  | .aborted => s

/-- The active run ends and is spent (R148); a homing run's leg becomes none (R17, R150). -/
def State.endRun (s : State) : State :=
  match s.mon.run with
  | .none => s
  | .jog _ _ _ => { s with mon := { s.mon with run := .none } }
  | .home x =>
    { s with mon := { s.mon with run := .none } }.setAxis x { s.axis x with leg := none }

/-- R101: a CLAIMING or WAITING row becomes FREE with its waited flag cleared; HELD rows are kept. -/
def GuardRow.dropClaim (r : GuardRow) : GuardRow :=
  match r.guard with
  | .claiming => { r with guard := .free, waited := false, window := none }
  | .waiting => { r with guard := .free, waited := false, window := none }
  | .free => r
  | .held => r

/-- R101: at the entry into COMMISSION or ISOLATED every claim is dropped and the zone wait timer is reset. -/
def ZoneGuard.dropClaims (z : ZoneGuard) : ZoneGuard :=
  { rows := z.rows.map GuardRow.dropClaim, waitElapsed := 0 }

/-- The working copy is discarded and the latch cleared at each leaving of COMMISSION (R179, R183). -/
def State.leaveCommission (s : State) : State :=
  { s with comm := { s.comm with working := none }, store := { s.store with latch := false } }

/-- Entry into ISOLATED (R171, R166, R101, R179): the bus interface clears the status pending flag, frees both reply places
and stops the schedule and the silence timer; a frame in transmission is sent to its end. The requests of the same event come
before that clearing, and a DUPLICATE_STATION reported in ISOLATED enters it again (log entry 9, DEDUCED). -/
def State.enterIsolated (s : State) : State :=
  { s.leaveCommission with
    comm := { s.leaveCommission.comm with mode := .isolated }
    zones := s.zones.dropClaims
    bus := { s.bus with
      statusPending := false, place0 := .free, place1 := .free, readyOrder := [], nextDue := none, silence := .stopped } }

end Sys2Proof.Machine
end

