-- ==== Sys2Proof/Machine/Faults.lean ====
section
/-! DEFINITION. The fault unit (chapter 10): kinds and their codes, latching (R167, R168), the STOP line drive (R170), the
reactions to a report (R169, R171), the sensing of the line (R175), the conditions of each kind (R173, R98), and the local
stop chain (R51). -/

namespace Sys2Proof.Machine

/-- Kind codes (section 10.1). -/
def FaultKind.code : FaultKind → Nat
  | .following => 1
  | .encoderSlip => 2
  | .zoneConflict => 3
  | .envelopeBreach => 4
  | .duplicateStation => 5
  | .limit => 6
  | .drive => 7
  | .eStop => 8
  | .homeFail => 9
  | .stepTimeout => 10
  | .zoneTimeout => 11
  | .busSilent => 12

/-- The STOP_ALL kinds (section 10.1). -/
def FaultKind.stopAll : FaultKind → Bool
  | .following => true
  | .encoderSlip => true
  | .zoneConflict => true
  | .envelopeBreach => true
  | .duplicateStation => true
  | .limit => false
  | .drive => false
  | .eStop => false
  | .homeFail => false
  | .stepTimeout => false
  | .zoneTimeout => false
  | .busSilent => false

/-- Notice codes (section 10.1). -/
def Notice.code : Notice → Nat
  | .peerLost => 16
  | .peerAborted => 17
  | .targetLimited => 18
  | .slotBad => 19

/-- The set with a kind added, in the order of the codes and without repeats. -/
def insertKind (k : FaultKind) : List FaultKind → List FaultKind
  | [] => [k]
  | j :: js => if k.code < j.code then k :: j :: js else if k.code = j.code then j :: js else j :: insertKind k js

/-- The kinds held: the record's kind and the also-seen set. -/
def FaultUnit.held (f : FaultUnit) : List FaultKind :=
  match f.record with
  | none => f.alsoSeen
  | some r => r.kind :: f.alsoSeen

/-- R170, R175: the STOP line is driven exactly while a STOP_ALL kind is held, and a line that this station drives is sensed
ASSERTED by it at once (log entry 8). -/
def FaultUnit.withDrive (f : FaultUnit) : FaultUnit :=
  { f with
    drivesStop := f.held.any FaultKind.stopAll
    lineAsserted := f.lineAsserted || f.held.any FaultKind.stopAll }

def FaultFields.none : FaultFields := { axis := Option.none, zone := Option.none, peer := Option.none }

/-- A report naming an axis alone. -/
def FaultFields.ofAxis (x : Axis) : FaultFields := { axis := some x, zone := Option.none, peer := Option.none }

/-- The pair of layout and step index of R168: present while the sequencer is ARMED, RUNNING or PAUSED. -/
def State.faultPlace (s : State) : Option (Nat × Nat) :=
  match s.seq.state with
  | .armed => some (s.seq.layout, 0)
  | .running => some (s.seq.layout, s.seq.step)
  | .paused => some (s.seq.layout, s.seq.step)
  | .idle => none
  | .complete => none
  | .aborted => none

/-- R167: an empty record is filled with the fields of R168; otherwise the kind joins the set unless it is held already. -/
def State.latch (s : State) (k : FaultKind) (fields : FaultFields) : State :=
  match s.fault.record with
  | none =>
    ({ s with fault := ({ s.fault with
        record := some { kind := k, fields := fields, place := s.faultPlace, slewE := s.slew.e, rakeE := s.rake.e } } :
        FaultUnit).withDrive } : State).requestStatus
  | some r =>
    if r.kind = k ∨ k ∈ s.fault.alsoSeen then s
    else
      ({ s with fault := ({ s.fault with alsoSeen := insertKind k s.fault.alsoSeen } : FaultUnit).withDrive } :
        State).requestStatus

/-- R167: a report of BUS_SILENT also clears the sent-since-silence flag. -/
def State.clearSent (s : State) (k : FaultKind) : State :=
  if k = .busSilent then { s with fault := { s.fault with sentSinceSilence := false } } else s

/-- The orders that follow every report (R169, R171): quick stop of both axes, abort or return to IDLE with REFUSED_FAULT,
the end of any run, and ISOLATED for DUPLICATE_STATION. -/
def State.faultReactions (s : State) (k : FaultKind) : State :=
  let s1 := ((s.stopBoth .quick).endConversion (some .refusedFault)).endRun
  if k = .duplicateStation then s1.enterIsolated else s1

/-! ## The STOP line -/

/-- The reactions to the line becoming ASSERTED in OPERATIONAL (R175). -/
def State.lineReactions (s : State) : State :=
  ((s.stopBoth .quick).endConversion (some .refusedStopLine)).endRun

/-- R170, R175: a line that this report's drive made ASSERTED (`before` is the level sensed before it) has the reactions of
sensing, after those of the report (log entry 8). -/
def State.senseOwn (s : State) (before : Bool) : State :=
  if !before ∧ s.fault.lineAsserted ∧ s.comm.mode = .operational then s.lineReactions else s

/-- A report of a latching fault, taken as one event: latched, then its reactions (R167, R169), then those of the line it
drives (R170). -/
def State.report (s : State) (k : FaultKind) (fields : FaultFields) : State :=
  (((s.latch k fields).clearSent k).faultReactions k).senseOwn s.fault.lineAsserted

/-! ## The local stop chain -/

/-- The local stop chain is open (R51): both axes enter FAULTED and E_STOP is reported. -/
def State.chainOpened (s : State) : State :=
  ((s.faultAxis .rake).faultAxis .slew).report .eStop FaultFields.none

/-! ## Touching and the conditions of the kinds -/

/-- R63: an envelope touches a zone when the two closed ranges share a position. -/
def Range.touches (r : Range) (z : Zone) : Bool := decide (r.lo ≤ z.hi ∧ z.lo ≤ r.hi)

/-- The peer record of a station. -/
def findPeer (ps : List PeerRecord) (n : Nat) : Option PeerRecord := ps.find? (fun r => decide (r.station = n))

/-- What a sharing peer is read as saying of a zone (R80): its first entry for the zone if its mode is OPERATIONAL, and
otherwise a BLOCK without the claim mark from a referenced peer. -/
structure PeerSays where
  adv : Adv
  mark : Bool
  waited : Bool
  slewRef : Bool
  deriving DecidableEq, Repr, Inhabited

/-- The mode nibble of an OPERATIONAL station (section 9.2). -/
abbrev modeOperational : Nat := 2

def PeerStatus.says (st : PeerStatus) (zone : Nat) : PeerSays :=
  if st.mode = modeOperational then
    match st.zones.find? (fun z => decide (z.zone = zone)) with
    | some z => { adv := z.adv, mark := decide (z.adv = .block) && z.mark, waited := z.waited, slewRef := st.slewRef }
    | none => { adv := .block, mark := false, waited := false, slewRef := true }
  else { adv := .block, mark := false, waited := false, slewRef := true }

/-- R97: a conflicting entry is HELD, or BLOCK from a referenced slew, R80's reading included. A BLOCK conflicts with the claim
mark as without it: R97 makes no exception for the mark, of which R94 says that it does not dispute the zone (log entry 30,
DESIGN CHOICE). -/
def PeerSays.conflicts (e : PeerSays) : Bool :=
  match e.adv with
  | .held => true
  | .block => e.slewRef
  | .none => false
  | .claim => false

/-- A FRESH sharing peer has a conflicting entry for a zone (R97); a peer that is not FRESH has none (R98). -/
def State.peerConflicts (s : State) (zone station : Nat) : Bool :=
  match findPeer s.peers station with
  | some r =>
    match r.freshness, r.status with
    | .fresh, some st => (st.says zone).conflicts
    | _, _ => false
  | none => false

/-- Some sharing peer of the row's zone has a conflicting entry. -/
def State.rowConflicts (s : State) (r : GuardRow) : Bool := r.zone.peers.any (s.peerConflicts r.zone.number)

/-- Both axes OFF or FAULTED. -/
def State.bothAtRest (s : State) : Bool := s.slew.atRest && s.rake.atRest

/-- The axes judged for a kind that names one (R173): in the record the named axis, in the set both. -/
def State.namedAtRest (s : State) : Option Axis → Bool
  | some x => (s.axis x).atRest
  | none => s.bothAtRest

/-- R173: whether the condition of a held kind is gone. `fields` are the record's when the kind is the record's, and `none`
when it is in the also-seen set. -/
def State.conditionGone (s : State) (k : FaultKind) (fields : Option FaultFields) : Bool :=
  match k with
  | .following => s.namedAtRest (fields.bind (·.axis))
  | .encoderSlip => s.namedAtRest (fields.bind (·.axis))
  | .drive => s.namedAtRest (fields.bind (·.axis))
  | .stepTimeout => s.bothAtRest
  | .zoneTimeout => s.bothAtRest
  | .envelopeBreach =>
    s.bothAtRest && (!s.slew.referenced ||
      s.zones.rows.all (fun r => !s.env.slew.touches r.zone || decide (r.guard = .held)))
  | .zoneConflict =>
    match fields.bind (·.zone) with
    | some z => s.zones.rows.all (fun r => !decide (r.zone.number = z) || !s.rowConflicts r)
    | none => s.zones.rows.all (fun r => !decide (r.guard = .held) || !s.rowConflicts r)
  | .eStop => !s.chainOpen
  | .busSilent => s.fault.sentSinceSilence
  | .limit => true
  | .homeFail => true
  | .duplicateStation => false

/-- Every held condition has gone (R172). -/
def State.allGone (s : State) : Bool :=
  (match s.fault.record with
    | some r => s.conditionGone r.kind (some r.fields)
    | none => true) &&
  s.fault.alsoSeen.all (fun k => s.conditionGone k none)

/-- A FAULTED axis enters OFF at an accepted CLEAR_FAULT (R52, R172), with P set to E there (R36). -/
def AxisUnit.unfault (a : AxisUnit) : AxisUnit := if a.state = .faulted then a.toOff else a

/-- What an accepted CLEAR_FAULT does (R172): record and set emptied, the STOP line drive released, FAULTED axes to OFF. -/
def State.clearFaults (s : State) : State :=
  ({ s with
      slew := s.slew.unfault
      rake := s.rake.unfault
      fault := { s.fault with record := none, alsoSeen := [], drivesStop := false } } : State).requestStatus

end Sys2Proof.Machine
end

