-- ==== Sys2Proof/Machine/Flags.lean ====
section
/-! DEFINITION. What the station shows of itself: advertised states and claim marks (R79), the status payload (section 9.2,
R119), and the numbers that stand for named states on the bus. -/

namespace Sys2Proof.Machine

/-! ## Advertised states (R79) -/

/-- The advertised state of a row, from its guard state and the slew current envelope last written. -/
def GuardRow.adv (r : GuardRow) (slew : Range) : Adv :=
  match r.guard with
  | .held => .held
  | .claiming => if slew.touches r.zone then .block else .claim
  | .free => if slew.touches r.zone then .block else .none
  | .waiting => if slew.touches r.zone then .block else .none

/-- The claim mark: set on a BLOCK whose row is CLAIMING. -/
def GuardRow.mark (r : GuardRow) (slew : Range) : Bool := decide (r.guard = .claiming) && slew.touches r.zone

/-- The waited flag as carried: the row's when the advertised state is CLAIM or a marked BLOCK, clear otherwise. -/
def GuardRow.carried (r : GuardRow) : Bool := decide (r.guard = .claiming) && r.waited

/-- What the status says of each zone, in map order: state, claim mark, carried waited flag. -/
def State.advertised (s : State) : List (Nat × Adv × Bool × Bool) :=
  s.zones.rows.map (fun r => (r.zone.number, r.adv s.env.slew, r.mark s.env.slew, r.carried))

/-- R79: a change of any zone's advertised state, mark or carried flag between two moments requests one status. -/
def State.announce (s : State) (before : State) : State :=
  if s.advertised = before.advertised then s else s.requestStatus

/-! ## Codes (section 9.2) -/

def Adv.code : Adv → Nat
  | .none => 0
  | .claim => 1
  | .held => 2
  | .block => 3

def Adv.ofCode : Nat → Adv
  | 0 => .none
  | 1 => .claim
  | 2 => .held
  | _ => .block

def Mode.code : Mode → Nat
  | .start => 0
  | .unconfigured => 1
  | .operational => 2
  | .commission => 3
  | .isolated => 0

def SeqState.code : SeqState → Nat
  | .idle => 0
  | .armed => 1
  | .running => 2
  | .paused => 3
  | .complete => 4
  | .aborted => 5

def Phase.code : Phase → Nat
  | .none => 0
  | .waitPeers => 1
  | .moving => 2
  | .dwell => 3
  | .done => 4

/-- Outcome codes (R165). -/
def CmdOutcome.code : CmdOutcome → Nat
  | .accepted => 1
  | .done => 2
  | .refusedBusy => 3
  | .refusedState => 4
  | .refusedNoLayout => 5
  | .refusedNotReferenced => 6
  | .refusedFault => 7
  | .refusedActive => 8
  | .refusedNoEnable => 9
  | .refusedStopLine => 10
  | .refusedPeers => 11
  | .annulled => 12
  | .refusedLimit => 13

/-! ## The status frame (section 9.2, R159) -/

/-- The zone state byte: state in bits 1 and 0, waited flag in bit 2, claim mark in bit 3. -/
def zoneStateByte (adv : Adv) (mark waited : Bool) : Byte :=
  toByte (adv.code + (if waited then 4 else 0) + (if mark then 8 else 0))

/-- Bits 3 to 0 of byte 0 of the status. -/
def statusFlags (slewRef rakeRef stopSeen enable : Bool) : BitVec 4 :=
  BitVec.ofNat 4 ((if slewRef then 1 else 0) + (if rakeRef then 2 else 0) + (if stopSeen then 4 else 0) +
    (if enable then 8 else 0))

/-- The fault byte: the record's kind code, with bit 7 for a non-empty also-seen set. -/
def FaultUnit.statusByte (f : FaultUnit) : Byte :=
  toByte ((match f.record with | some r => r.kind.code | none => 0) + (if f.alsoSeen.isEmpty then 0 else 128))

/-- The status payload as the blocks stand (R159). A station without guard rows lists no zones. -/
def State.statusPayload (s : State) : StatusPayload where
  mode := BitVec.ofNat 4 s.comm.mode.code
  flags := statusFlags s.slew.referenced s.rake.referenced s.fault.lineAsserted s.mon.present
  seqState := BitVec.ofNat 4 s.seq.state.code
  phase := BitVec.ofNat 4 s.seq.phase.code
  layout := toByte s.seq.layout
  step := toByte s.seq.step
  slewE := toField24 s.slew.e
  slewLo := toField24 s.env.slew.lo
  slewHi := toField24 s.env.slew.hi
  rakeE := toField24 s.rake.e
  rakeHi := toField24 s.env.rakeHi
  zones := s.advertised.map (fun z => (toByte z.1, zoneStateByte z.2.1 z.2.2.1 z.2.2.2))
  fault := s.fault.statusByte
  notice := toByte (match s.fault.notice with | some n => n.code | none => 0)
  outStation := toByte (match s.bus.outcome with | some o => o.console | none => 0)
  outTag := toByte (match s.bus.outcome with | some o => o.tag | none => 0)
  outCode := toByte (match s.bus.outcome with | some o => o.outcome.code | none => 0)

/-- This part as the sender of a frame. -/
def State.self (s : State) : Sender := { station := BitVec.ofNat 5 s.station, unitTag := s.nv.unitTag }

/-- The status frame as it would be built now. -/
def State.statusFrame (s : State) : List Byte := frameBytes 3#3 s.self (statusBytes s.statusPayload)

end Sys2Proof.Machine
end

