-- ==== Sys2Proof/Machine/Zones.lean ====
section
/-! DEFINITION. The zone guard (chapter 5): precedence and the clear test (R81, R82), needs (R83, R84), release and drop
(R90, R93, R95), selection and claim (R86, R87, R92), the tick event (R85), arrivals and changes of freshness (R88, R89,
R94, R97), the window expiry (R91) and the zone wait limit (R100). -/

namespace Sys2Proof.Machine

/-! ## Judging a peer -/

/-- R81: a claim with the waited flag ranks above one without; alike, the lower station number ranks above. -/
def ranksAbove (waited₁ : Bool) (station₁ : Nat) (waited₂ : Bool) (station₂ : Nat) : Bool :=
  (waited₁ && !waited₂) || (decide (waited₁ = waited₂) && decide (station₁ < station₂))

/-- R82 for what a FRESH peer says, against this station's claim. -/
def PeerSays.clearFor (e : PeerSays) (ownWaited : Bool) (own peer : Nat) (ownReferenced : Bool) : Bool :=
  match e.adv with
  | .none => true
  | .claim => ranksAbove ownWaited own e.waited peer
  | .held => false
  | .block => !e.slewRef && !ownReferenced && (!e.mark || ranksAbove ownWaited own e.waited peer)

/-- R82: a sharing peer is clear for a row. -/
def State.peerClear (s : State) (r : GuardRow) (peer : Nat) : Bool :=
  match findPeer s.peers peer with
  | some rec =>
    match rec.freshness, rec.status with
    | .fresh, some st =>
      decide (st.mode = modeOperational) &&
        (st.says r.zone.number).clearFor r.waited s.station peer s.slew.referenced
    | _, _ => false
  | none => false

/-- A row's peers are all clear (R82). -/
def State.allClear (s : State) (r : GuardRow) : Bool := r.zone.peers.all (s.peerClear r)

/-! ## Needs -/

/-- R84: whether an unreferenced slew has a motion request. -/
def AxisUnit.hasMotion (a : AxisUnit) : Bool :=
  match a.state with
  | .starting _ => true
  | .tracking _ => true
  | .stopping _ => true
  | .settling => a.pending.isSome
  | .off => false
  | .faulted => false

/-- The need of a row at a tick (R83 for a REFERENCED slew, R84 otherwise). -/
def State.needOf (s : State) (z : Zone) : Need :=
  if s.slew.referenced then
    if s.env.travel.isSome ∧ s.env.approach.touches z then .travel
    else if s.env.velLeft = 0 ∧ s.env.slew.touches z then .rehold
    else .none
  else if s.slew.hasMotion then (if s.env.travel.isSome then .travel else .rehold)
  else .none

/-! ## Transitions of a row -/

def GuardRow.toFree (r : GuardRow) : GuardRow := { r with guard := .free, waited := false, window := none }
def GuardRow.toHeld (r : GuardRow) : GuardRow := { r with guard := .held, waited := false, window := none }
def GuardRow.toWaiting (r : GuardRow) : GuardRow := { r with guard := .waiting, waited := true, window := none }
def GuardRow.toClaiming (r : GuardRow) : GuardRow := { r with guard := .claiming, window := some Config.claimWindow }

/-- R93 and R95: whether a HELD row is released at a tick. -/
def State.releases (s : State) (z : Zone) : Bool :=
  if s.slew.referenced then !s.env.slew.touches z && !s.env.approach.touches z else !s.slew.hasMotion

/-- Steps 1 to 3 of R85 for one row: its need, the release of a HELD row, the drop of a claim whose need has gone (R90). -/
def State.tickRow (s : State) (r : GuardRow) : GuardRow :=
  let r1 := { r with need := s.needOf r.zone }
  match r.guard with
  | .held => if s.releases r.zone then r1.toFree else r1
  | .claiming => if r1.need = .none then r1.toFree else r1
  | .waiting => if r1.need = .none then r1.toFree else r1
  | .free => r1

/-! ## Selection -/

/-- R86: a candidate is FREE or WAITING with a need. -/
def GuardRow.candidate (r : GuardRow) : Bool :=
  (decide (r.guard = .free) || decide (r.guard = .waiting)) && !decide (r.need = .none)

/-- The index of the row whose key is least among the candidates, the first of equal keys. -/
def leastIndex (key : GuardRow → Int) : List GuardRow → Nat → Option (Nat × Int) → Option (Nat × Int)
  | [], _, best => best
  | r :: rs, i, best =>
    leastIndex key rs (i + 1)
      (if r.candidate then
        match best with
        | none => some (i, key r)
        | some (j, k) => if key r < k then some (i, key r) else some (j, k)
      else best)

/-- The order of candidates (R86): ascending zlo for positive travel, descending zhi for negative, map order otherwise. -/
def State.selectionKey (s : State) (r : GuardRow) : Int :=
  if s.slew.referenced then
    match s.env.travel with
    | some t => if t.dir = .pos then r.zone.lo else - r.zone.hi
    | none => 0
  else 0

/-- The row the selection chooses, if any: none while a row is CLAIMING. -/
def State.chosen (s : State) : Option Nat :=
  if s.zones.rows.any (fun r => decide (r.guard = .claiming)) then none
  else (leastIndex s.selectionKey s.zones.rows 0 none).map (·.1)

/-- R87: the chosen row claims when its peers are all clear; otherwise it waits with its waited flag set. -/
def State.claimOrWait (s : State) (r : GuardRow) : GuardRow := if s.allClear r then r.toClaiming else r.toWaiting

/-- One row of the table changed. -/
def State.modRow (s : State) (i : Nat) (f : GuardRow → GuardRow) : State :=
  { s with zones := { s.zones with rows := s.zones.rows.modify i f } }

/-- The selection of R86, made in OPERATIONAL alone (R101). -/
def State.select (s : State) : State :=
  if s.comm.mode = .operational then
    match s.chosen with
    | some i => s.modRow i s.claimOrWait
    | none => s
  else s

/-! ## Events -/

/-- The zone guard at a profile tick (R85, steps 1 to 4, and R99); `before` is the state the tick began with, whose
advertised states step 5 compares with. -/
def State.zoneTick (s : State) (before : State) : State :=
  (((({ s with zones := { s.zones with rows := s.zones.rows.map s.tickRow } } : State).select).judgeZoneWait).announce before)

/-- The station shares some zone of the map. -/
def State.sharesZone (s : State) (station : Nat) : Bool := s.zones.rows.any (fun r => decide (station ∈ r.zone.peers))

/-- The ZONE_CONFLICT reports of an arrival (R97): one for each HELD row whose zone the peer shares and whose entry
conflicts, in map order. -/
def State.reportConflicts (s : State) (station : Nat) : List GuardRow → State
  | [] => s
  | r :: rs =>
    (if r.guard = .held ∧ station ∈ r.zone.peers ∧ s.peerConflicts r.zone.number station then
      s.report .zoneConflict
        { axis := Option.none, zone := some r.zone.number, peer := some station }
    else s).reportConflicts station rs

/-- R88: the CLAIMING row of a zone the station shares is withdrawn when that peer is not clear. -/
def State.withdrawNotClear (s : State) (station : Nat) : State :=
  { s with zones := { s.zones with
      rows := s.zones.rows.map (fun r =>
        if r.guard = .claiming ∧ station ∈ r.zone.peers ∧ ¬ s.peerClear r station then r.toWaiting else r) } }

/-- R89: the CLAIMING row of a zone the station shares is withdrawn when its record leaves FRESH. -/
def State.withdrawStale (s : State) (station : Nat) : State :=
  { s with zones := { s.zones with
      rows := s.zones.rows.map (fun r =>
        if r.guard = .claiming ∧ station ∈ r.zone.peers then r.toWaiting else r) } }

/-- A selection follows an arrival or a change of freshness of a sharing peer (R86). -/
def State.selectFor (s : State) (station : Nat) : State := if s.sharesZone station then s.select else s

/-- A status arrival handed to the zone guard (R97, then R88, then R86). An arrival that withdraws the claim makes no
selection: R88 sends the arrival on to the selection when the peer is clear (log entry 25, DEDUCED). -/
def State.zoneArrival (s : State) (station : Nat) : State :=
  let s1 := s.reportConflicts station s.zones.rows
  let s2 := s1.withdrawNotClear station
  let s3 := if s2.zones.rows = s1.zones.rows then s2.selectFor station else s2
  s3.judgeZoneWait.announce s1

/-- A change of freshness handed to the zone guard (R89, R86, R111): `leftFresh` when the record became STALE. -/
def State.zoneFreshness (s : State) (station : Nat) (leftFresh : Bool) : State :=
  let s1 := if leftFresh then s.withdrawStale station else s
  ((s1.selectFor station).judgeZoneWait).announce s

/-- The index of the first row that satisfies a test. -/
def rowIndex (f : GuardRow → Bool) (rows : List GuardRow) : Option Nat := rows.findIdx? f

/-- The claim window expires (R91): the CLAIMING row becomes HELD when all clear and WAITING otherwise, and a selection
follows. With no row CLAIMING the expiry does not occur. -/
def State.windowExpired (s : State) : State :=
  match rowIndex (fun r => decide (r.guard = .claiming)) s.zones.rows with
  | none => s
  | some i =>
    (((s.modRow i (fun r => if s.allClear r then r.toHeld else r.toWaiting)).select).judgeZoneWait).announce s

/-- The row ZONE_TIMEOUT names (R100): the CLAIMING row, else the first WAITING row with need TRAVEL. -/
def State.timeoutRow (s : State) : Option GuardRow :=
  match s.zones.rows.find? (fun r => decide (r.guard = .claiming)) with
  | some r => some r
  | none => s.zones.rows.find? (fun r => decide (r.guard = .waiting) && decide (r.need = .travel))

/-- The zone wait limit is reached (R100): the elapsed time is reset and ZONE_TIMEOUT is reported with its zone and the
first sharing peer that is not clear. -/
def State.zoneWaitExpired (s : State) : State :=
  match s.timeoutRow with
  | none => s
  | some r =>
    ({ s with zones := { s.zones with waitElapsed := 0 } } : State).report .zoneTimeout
      { axis := Option.none, zone := some r.zone.number
        peer := r.zone.peers.find? (fun p => !s.peerClear r p) }

end Sys2Proof.Machine
end

