-- ==== Sys2Proof/Machine/Peers.lean ====
section
/-! DEFINITION. The peer view (chapter 6): membership (R105, R106), status arrivals (R109), freshness (R111), the duplicate
check (R113). -/

namespace Sys2Proof.Machine

/-- A newly made record: UNHEARD, no age, no status (R105, R106). -/
def PeerRecord.make (station : Nat) (zoneRole scriptRole : Bool) : PeerRecord where
  station := station
  zoneRole := zoneRole
  scriptRole := scriptRole
  freshness := .unheard
  age := none
  status := none

/-- A record put in its place: ascending station number (section 6.1). -/
def insertPeer (r : PeerRecord) : List PeerRecord → List PeerRecord
  | [] => [r]
  | q :: qs => if r.station < q.station then r :: q :: qs else q :: insertPeer r qs

/-- The records built at the end of START (R105): one for each zone peer, UNHEARD, with role ZONE. -/
def zoneRecords (stations : List Nat) : List PeerRecord :=
  stations.foldl (fun ps n => insertPeer (PeerRecord.make n true false) ps) []

/-! ## Script peers (R106) -/

/-- The new stations among the script peers: those with no record yet. -/
def newStations (ps : List PeerRecord) (script : List Nat) : List Nat :=
  script.filter (fun n => (findPeer ps n).isNone)

/-- R106: refused when a script peer is this station, or when the new stations exceed the free records. -/
def grantsScript (own : Nat) (ps : List PeerRecord) (script : List Nat) : Bool :=
  !script.contains own && decide ((newStations ps script).length + ps.length ≤ Config.maxPeers)

/-- The records with the script peers added: new ones UNHEARD with role SCRIPT, held ones gaining the role. -/
def addScript (ps : List PeerRecord) (script : List Nat) : List PeerRecord :=
  (newStations ps script).foldl (fun qs n => insertPeer (PeerRecord.make n false true) qs)
    (ps.map (fun r => { r with scriptRole := r.scriptRole || script.contains r.station }))

/-! ## Status arrivals -/

/-- A zone entry as a record keeps it: state in bits 1 and 0, waited flag bit 2, claim mark bit 3 (section 9.2). -/
def peerZoneOf (z : Byte × Byte) : PeerZone where
  zone := z.1.toNat
  adv := Adv.ofCode (z.2.extractLsb' 0 2).toNat
  mark := z.2.getLsbD 3
  waited := z.2.getLsbD 2

/-- The status fields as a record keeps them (R109). -/
def peerStatusOf (p : StatusPayload) : PeerStatus where
  mode := p.mode.toNat
  slewRef := p.flags.getLsbD 0
  rakeRef := p.flags.getLsbD 1
  stopSeen := p.flags.getLsbD 2
  seqState := p.seqState.toNat
  phase := p.phase.toNat
  layout := p.layout.toNat
  step := p.step.toNat
  slewE := p.slewE.toInt
  slewLo := p.slewLo.toInt
  slewHi := p.slewHi.toInt
  rakeE := p.rakeE.toInt
  rakeHi := p.rakeHi.toInt
  zones := p.zones.map peerZoneOf
  faultKind := (p.fault.extractLsb' 0 7).toNat
  alsoSeen := p.fault.getLsbD 7

/-- One record of the view changed. -/
def modPeer (n : Nat) (f : PeerRecord → PeerRecord) (ps : List PeerRecord) : List PeerRecord :=
  ps.map (fun r => if r.station = n then f r else r)

/-- R109: every status field replaced as one change, FRESH, age from 0. -/
def PeerRecord.hear (st : PeerStatus) (r : PeerRecord) : PeerRecord :=
  { r with freshness := .fresh, age := some 0, status := some st }

/-- R111: the age has passed 75 ms; the record becomes STALE. -/
def PeerRecord.toStale (r : PeerRecord) : PeerRecord :=
  { r with freshness := .stale, age := some (max Config.staleAge (r.age.getD 0)) }

/-- R111: the age has passed 500 ms; the record becomes LOST. -/
def PeerRecord.toLost (r : PeerRecord) : PeerRecord :=
  { r with freshness := .lost, age := some (max Config.lostAge (r.age.getD 0)) }

/-! ## The duplicate check -/

/-- R113: a frame that is not this station's own, bearing its number with another unit tag, reports DUPLICATE_STATION. -/
def State.checkDuplicate (s : State) (snd : Sender) : State :=
  if s.station ≠ 0 ∧ snd.station.toNat = s.station ∧ snd.unitTag ≠ s.nv.unitTag then
    s.report .duplicateStation { axis := none, zone := none, peer := some s.station }
  else s

end Sys2Proof.Machine
end

