-- ==== Sys2Proof/Machine/Requests.lean ====
section
/-! DEFINITION. Motion requests: the clamps (R22, R23), the end limit lock (R11), how an axis in each state takes or keeps a
request (R21, R40, R43, R45, R47, R49), the handshake that a request starts (R40 to R42), and the steps that take a pending
request again (R11, R42, R46, R47). -/

namespace Sys2Proof.Machine

/-- R22: a requested speed is clamped into [Vcreep, Vmax]. -/
def clampSpeed (p : AxisParams) (v : Nat) : Nat := max p.vcreep (min p.vmax v)

/-- R22 and R23: the speed clamped, and the target of a REFERENCED axis clamped into its soft limits. -/
def clampGoal (p : AxisParams) (referenced : Bool) : Goal → Goal
  | .position t v => .position (if referenced then clampInt p.softLo p.softHi t else t) (clampSpeed p v)
  | .velocity d v => .velocity d (clampSpeed p v)
  | .brake r => .brake r

/-- R23: TARGET_LIMITED is raised when a REFERENCED axis's target lies outside its soft limits. -/
def targetLimited (p : AxisParams) (referenced : Bool) : Goal → Bool
  | .position t _ => referenced && decide (clampInt p.softLo p.softHi t ≠ t)
  | .velocity _ _ => false
  | .brake _ => false

/-- The direction a request asks for: the sign of T − P, or the requested direction (R11). -/
def Goal.dir (g : Goal) (p : Int) : Option Dir :=
  match g with
  | .position t _ => dirOf (t - p)
  | .velocity d _ => some d
  | .brake _ => none

/-- R11: the lock refuses a request that points toward an ACTIVE limit, and every request while both limits are ACTIVE but
the brake of a search's reversal, which R14 asks for at A_quick (log entry 12). -/
def AxisUnit.lockRefuses (a : AxisUnit) (g : Goal) : Bool :=
  match g with
  | .brake .quick => false
  | .brake .normal => a.negLimit && a.posLimit
  | .position _ _ => (a.negLimit && a.posLimit) || ((g.dir a.p).map a.limit).getD false
  | .velocity _ _ => (a.negLimit && a.posLimit) || ((g.dir a.p).map a.limit).getD false

/-- What a refused request does (R11): a script step's reports LIMIT with its axis; the enable monitor's and the position
unit's get a motion-stopped report. -/
def State.refuseRequest (s : State) (x : Axis) (by_ : Requester) : State :=
  match by_ with
  | .sequencer => s.report .limit (FaultFields.ofAxis x)
  | .enableMonitor => s.tellStopped x (some .enableMonitor)
  | .positionUnit => s.tellStopped x (some .positionUnit)

/-- A request taken into the profile (R21, R45): it replaces the mode and the requester, the hold stops, P, F and V are
kept. -/
def AxisUnit.takeGoal (a : AxisUnit) (r : Request) : AxisUnit :=
  { a.enter (.tracking false) none with mode := some r.goal, requester := some r.asker, pending := none }

/-- The end of the brake release time (R42): TRACKING with the pending request, or SETTLING when the lock refuses it. -/
def State.releaseExpired (s : State) (x : Axis) : State :=
  let a := s.axis x
  match a.pending with
  | none => s.setAxis x { a.enter (.tracking false) none with mode := none, requester := none }
  | some r =>
    if a.lockRefuses r.goal then
      (s.setAxis x ({ a with pending := none }.toSettling (s.params x).setTime)).refuseRequest x r.asker
    else s.setAxis x (a.takeGoal r)

/-- Drive-ready taken in AWAIT_READY (R41): the brake is lifted; a brake release time of 0 expires at once. -/
def State.readyTaken (s : State) (x : Axis) : State :=
  let s1 := s.setAxis x ((s.axis x).enter (.starting .releasing) (some (s.params x).releaseTime))
  if (s.params x).releaseTime = 0 then s1.releaseExpired x else s1

/-- R40: out of OFF with an allowed request. P is set to E and F to 0, the ready limit starts; a drive-ready already active
is taken at once. -/
def State.startUp (s : State) (x : Axis) (r : Request) : State :=
  let a := s.axis x
  let s1 := s.setAxis x
    { a.enter (.starting .awaitReady) (some Config.readyLimit) with p := a.e, f := 0, pending := some r }
  if a.ready then s1.readyTaken x else s1

/-- A clamped and allowed request meets the axis in its state (R21, R40, R43, R45, R47, R49). While a restart is pending no
motion begins (R180): an axis in OFF stays there and the request is dropped (log entry 10). -/
def State.placeRequest (s : State) (x : Axis) (r : Request) : State :=
  let a := s.axis x
  match a.state with
  | .off => if s.comm.restartPending then s else s.startUp x r
  | .starting _ => s.setAxis x { a with pending := some r }
  | .tracking _ => s.setAxis x (a.takeGoal r)
  | .stopping _ => s.setAxis x { a with pending := some r }
  | .settling => s.setAxis x { a with pending := some r }
  | .faulted => s.tellStopped x (some r.asker)

/-- A motion request (R21): clamped, judged by the lock, then taken or kept as the axis's state gives. -/
def State.request (s : State) (x : Axis) (r : Request) : State :=
  let p := s.params x
  let ref := (s.axis x).referenced
  let s1 := if targetLimited p ref r.goal then s.raiseNotice .targetLimited else s
  let r1 : Request := { goal := clampGoal p ref r.goal, asker := r.asker }
  if (s1.axis x).lockRefuses r1.goal then s1.refuseRequest x r1.asker else s1.placeRequest x r1

/-- At OFF a pending request is taken under R40 (R46, R47): judged again, and dropped if refused (R11). -/
def State.takeAtOff (s : State) (x : Axis) : State :=
  let a := s.axis x
  match a.state, a.pending with
  | .off, some r => (s.setAxis x { a with pending := none }).request x r
  | _, _ => s

/-- The end of the brake set time (R46): OFF, then any pending request. -/
def State.setExpired (s : State) (x : Axis) : State := (s.setAxis x (s.axis x).toOff).takeAtOff x

/-- The end of the hold (R46): SETTLING; a brake set time of 0 gives OFF at once. -/
def State.holdExpired (s : State) (x : Axis) : State :=
  (s.setAxis x ((s.axis x).toSettling (s.params x).setTime)).takeAtOff x

/-- A stop has ended (R32, R44, R47): a pending request is judged again by the lock and taken at once, the hold stopping; a
refused one is dropped with the hold running on. -/
def State.takeAtStopEnd (s : State) (x : Axis) : State :=
  let a := s.axis x
  match a.state, a.pending with
  | .tracking true, some r =>
    if a.lockRefuses r.goal then (s.setAxis x { a with pending := none }).refuseRequest x r.asker
    else s.setAxis x (a.takeGoal r)
  | _, _ => s

/-- A hold time of 0 ends the hold at once (R44). -/
def State.zeroHold (s : State) (x : Axis) : State :=
  if (s.axis x).state = .tracking true ∧ (s.params x).holdTime = 0 then s.holdExpired x else s

end Sys2Proof.Machine
end

