-- ==== Sys2Proof/Machine/Sequencer.lean ====
section
/-! DEFINITION. The sequencer (chapter 7): the running step (R118), conditions and the abort test (R127), the phases and the
advance through them (R126, R128 to R131), pause and resume (R133 to R135), a neighbour's abort (R137), completion. -/

namespace Sys2Proof.Machine

/-! ## Reading the script -/

/-- Slot `n`, 1 to 12, of the store. -/
def State.slot (s : State) (n : Nat) : Option Slot := if n = 0 then none else s.nv.slots[n - 1]?

/-- A step record with nothing in it (a cell that holds no step; R126 never meets one in a slot that passed its check). -/
def StepRecord.empty : StepRecord where
  slew := none
  rake := none
  order := .together
  conds := []
  dwell := none
  limit := none

/-- The step a cell holds. -/
def Cell.step? : Cell → Option StepRecord
  | .programmed r => some r
  | .blank => none
  | .torn => none

/-- A slot's step. -/
def Slot.step? (sl : Slot) (i : Nat) : Option StepRecord := (sl.cells[i]?).bind Cell.step?

/-- The step record of the running layout at the step index (R118). -/
def State.currentStep (s : State) : StepRecord :=
  (((s.slot s.seq.slot).bind (fun sl => sl.step? s.seq.step)).getD StepRecord.empty)

/-- The target pair of a step for an axis. -/
def StepRecord.pair (r : StepRecord) : Axis → Option (Int × Nat)
  | .slew => r.slew
  | .rake => r.rake

/-- The dwell of a step in ms: an absent dwell is 0 (R118). -/
def StepRecord.dwellMs (r : StepRecord) : Nat := r.dwell.getD 0

/-- The step time limit in ms: the step's, or the default of the record in force (R118). -/
def State.stepLimitMs (s : State) : Nat :=
  1000 * (s.currentStep.limit.getD (match s.comm.record with | some r => r.stepLimit | none => 0))

/-! ## Conditions and the abort test (R127) -/

/-- Status values of section 9.2 that the tests name. -/
abbrev seqComplete : Nat := 4
abbrev seqAborted : Nat := 5
abbrev phaseDone : Nat := 4

/-- A peer condition (station, step k) is met. -/
def State.condMet (s : State) (c : Nat × Nat) : Bool :=
  match findPeer s.peers c.1 with
  | some r =>
    match r.freshness, r.status with
    | .fresh, some st =>
      decide (st.layout = s.seq.layout) &&
        (decide (c.2 < st.step) || (decide (st.step = c.2) && decide (st.phase = phaseDone)) ||
          decide (st.seqState = seqComplete))
    | _, _ => false
  | none => false

/-- The conditions of the step that a test takes are tested; a met one sets its flag, and a set flag stays set. -/
def State.testConds (s : State) (takes : Nat → Bool) : State :=
  { s with seq := { s.seq with
      met := List.zipWith (fun m c => m || (takes c.1 && s.condMet c)) s.seq.met s.currentStep.conds } }

/-- A record shows ABORTED for this conversion's layout while FRESH. -/
def State.showsAborted (s : State) (r : PeerRecord) : Bool :=
  match r.freshness, r.status with
  | .fresh, some st => decide (st.seqState = seqAborted) && decide (st.layout = s.seq.layout)
  | _, _ => false

/-! ## Ending by the sequencer's own order -/

/-- A controlled stop of each REQUESTED axis, ordered by the sequencer (R133, R136, R137). -/
def State.stopRequested (s : State) : State :=
  let s1 := if s.seq.rakeMove = .requested then s.stopAxis .rake .controlled else s
  if s.seq.slewMove = .requested then s1.stopAxis .slew .controlled else s1

/-- R127, R137: PEER_ABORTED is noticed and the conversion aborted, with its controlled stops. -/
def State.peerAborts (s : State) : State := ((s.raiseNotice .peerAborted).stopRequested).seqToAborted

/-! ## Phases -/

/-- R126: a step starts in WAIT_PEERS, its flags cleared, its moves NONE, its timers at zero. -/
def State.startStep (s : State) (k : Nat) : State :=
  let s1 : State := { s with seq := { s.seq with
    step := k, phase := .waitPeers, slewMove := .none, rakeMove := .none, stepElapsed := 0, dwellElapsed := 0 } }
  ({ s1 with seq := { s1.seq with met := s1.currentStep.conds.map (fun _ => false) } } : State).requestStatus

/-- The POSITION request of an axis for the step in progress: the axis becomes REQUESTED and the motion core is asked, the
speed being the carried value times 256 fsu (R118, R128). A sequencer that is no longer RUNNING gives none (R138). -/
def State.giveTarget (s : State) (x : Axis) : State :=
  if s.seq.state = .running then
    match s.currentStep.pair x with
    | some (t, v) =>
      ({ s with seq := s.seq.setMove x .requested } : State).request x
        { goal := .position t (256 * v), asker := .sequencer }
    | none => s
  else s

/-- MOVING begins and gives the axes their requests according to targets and order (R128). -/
def State.startMoving (s : State) : State :=
  let st := s.currentStep
  let s1 : State := ({ s with seq := { s.seq with phase := .moving } } : State).requestStatus
  match st.slew, st.rake with
  | none, none => s1
  | some _, none => s1.giveTarget .slew
  | none, some _ => s1.giveTarget .rake
  | some _, some _ =>
    match st.order with
    | .together => (s1.giveTarget .rake).giveTarget .slew
    | .rakeFirst => ({ s1 with seq := s1.seq.setMove .slew .heldBack } : State).giveTarget .rake
    | .slewFirst => ({ s1 with seq := s1.seq.setMove .rake .heldBack } : State).giveTarget .slew

/-- An axis that MOVING still waits for (R129). -/
def MoveState.open_ : MoveState → Bool
  | .none => false
  | .heldBack => true
  | .requested => true
  | .interrupted => true
  | .arrived => false

/-- No axis is REQUESTED, INTERRUPTED or HELD_BACK. -/
def Sequencer.movesDone (q : Sequencer) : Bool := !q.slewMove.open_ && !q.rakeMove.open_

/-- R131: a DONE step hands over to the next, or the sequencer enters COMPLETE and drops the script peers. -/
def State.finishStep (s : State) : State :=
  if s.seq.step + 1 < s.seq.count then (s.startStep (s.seq.step + 1)).testConds (fun _ => true)
  else
    ({ s with
        seq := { s.seq with state := .complete, phase := .done, holdOff := none }
        peers := dropScript s.peers } : State).requestStatus

/-- The phases that end at once, one after another (R126 to R131), in RUNNING. Each step takes at most three rounds, so
`4 * 16` rounds reach a phase that waits. -/
def State.advance : Nat → State → State
  | 0, s => s
  | n + 1, s =>
    if s.seq.state = .running then
      match s.seq.phase with
      | .waitPeers => if s.seq.met.all id then State.advance n s.startMoving else s
      | .moving =>
        if s.seq.movesDone then
          State.advance n ({ s with seq := { s.seq with phase := .dwell, dwellElapsed := 0 } } : State).requestStatus
        else s
      | .dwell => if s.currentStep.dwellMs = 0 then State.advance n s.finishStep else s
      | .none => s
      | .done => s
    else s

/-- Rounds enough for a whole script. -/
abbrev advanceRounds : Nat := 64

/-- Every phase that can end now ends. -/
def State.runPhases (s : State) : State := State.advance advanceRounds s

/-! ## Events -/

/-- An arrival reported to the sequencer (R129, R134). -/
def State.seqArrived (s : State) (x : Axis) : State :=
  if s.seq.converting ∧ s.seq.move x = .requested then
    let s1 : State := { s with seq := s.seq.setMove x .arrived }
    let s2 := if s1.seq.state = .running ∧ s1.seq.move (otherAxis x) = .heldBack then s1.giveTarget (otherAxis x) else s1
    s2.runPhases
  else s

/-- The dwell of the step has passed (R130, R131). -/
def State.dwellEnds (s : State) : State :=
  if s.seq.state = .running ∧ s.seq.phase = .dwell then
    (({ s with seq := { s.seq with dwellElapsed := s.currentStep.dwellMs } } : State).finishStep).runPhases
  else s

/-- A status arrival handed to the sequencer (R127, R134): the abort test first, then the conditions naming the station. -/
def State.seqArrival (s : State) (station : Nat) : State :=
  if s.seq.converting then
    match findPeer s.peers station with
    | some r => if s.showsAborted r then s.peerAborts else (s.testConds (fun n => decide (n = station))).runPhases
    | none => s
  else s

/-- The hold-off expires in ARMED (R123): RUNNING or PAUSED by the enable, step 0 started, the abort test against every
script peer, and then the conditions (log entry 15). -/
def State.holdOffExpires (s : State) : State :=
  if s.seq.state = .armed then
    let s1 : State := { s with seq := { s.seq with
      state := if s.mon.present then .running else .paused, holdOff := none } }
    let s2 := (s1.startStep 0).judgeZoneWait
    if s2.peers.any (fun r => r.scriptRole && s2.showsAborted r) then s2.peerAborts
    else (s2.testConds (fun _ => true)).runPhases
  else s

/-- The enable becomes absent (R133). -/
def State.pause (s : State) : State :=
  if s.seq.state = .running then
    (({ s with seq := { s.seq with state := .paused } } : State).requestStatus).judgeZoneWait.stopRequested
  else s

/-- What the resume does with one axis in MOVING (R135): an INTERRUPTED axis is requested again, and so is a HELD_BACK axis
whose partner is ARRIVED; `q` is the sequencer as the resume found it. -/
def State.resumeAxis (s : State) (q : Sequencer) (x : Axis) : State :=
  match q.move x with
  | .interrupted => s.giveTarget x
  | .heldBack => if q.move (otherAxis x) = .arrived then s.giveTarget x else s
  | .none => s
  | .requested => s
  | .arrived => s

/-- The enable becomes present (R135). -/
def State.resume (s : State) : State :=
  if s.seq.state = .paused then
    let s1 := (({ s with seq := { s.seq with state := .running } } : State).requestStatus).judgeZoneWait
    match s1.seq.phase with
    | .waitPeers => (s1.testConds (fun _ => true)).runPhases
    | .moving => ((s1.resumeAxis s1.seq .rake).resumeAxis s1.seq .slew).runPhases
    | .dwell => s1
    | .none => s1
    | .done => s1
  else s

/-- The fields of a STEP_TIMEOUT (R132): in WAIT_PEERS the station of the first condition not met, in MOVING the first of
rake and slew that is REQUESTED, INTERRUPTED or HELD_BACK. -/
def State.timeoutFields (s : State) : FaultFields :=
  match s.seq.phase with
  | .waitPeers =>
    { axis := none, zone := none
      peer := ((List.zip s.seq.met s.currentStep.conds).find? (fun mc => !mc.1)).map (fun mc => mc.2.1) }
  | .moving =>
    { axis := if s.seq.rakeMove.open_ then some .rake else if s.seq.slewMove.open_ then some .slew else none
      zone := none, peer := none }
  | .dwell => FaultFields.none
  | .none => FaultFields.none
  | .done => FaultFields.none

/-- The step timer runs: RUNNING, in WAIT_PEERS or MOVING (R132). -/
def State.stepTimerRuns (s : State) : Bool :=
  decide (s.seq.state = .running) && (decide (s.seq.phase = .waitPeers) || decide (s.seq.phase = .moving))

/-- The frame discard report reaches the sequencer (R124): an ARMED conversion is annulled. -/
def State.annul (s : State) : State :=
  if s.seq.state = .armed then
    match s.seq.armed with
    | some (c, t) => s.seqToIdle.giveOutcome c t .annulled
    | none => s.seqToIdle
  else s

end Sys2Proof.Machine
end

