-- ==== Sys2Proof/Machine/Profile.lean ====
section
/-! DEFINITION. The arithmetic of a profile tick (chapter 2) and of the stopping envelope (chapter 4): candidates (R24, R25,
R29, R30, R31), the advance (R26), the envelopes (R55 to R62), the ceilings (R64), the check (R66 to R73), the speed
reference (R33, R53) and the following error (R35). -/

namespace Sys2Proof.Machine

/-! ## Candidate velocities -/

/-- Deceleration at a rate without passing zero: max(|V| − r, 0) with the sign of V. -/
def slowBy (v : Int) (r : Nat) : Int := signed v.sign (v.natAbs - r)

/-- Toward Vseg at A (the last three cases of R25 and R29): magnitude. -/
def towardSeg (mag vseg a : Nat) : Nat :=
  if mag < vseg then min (mag + a) vseg else if vseg < mag then max (mag - a) vseg else mag

/-- R25: the candidate in POSITION mode with D counts to go. -/
def positionCandidate (p : AxisParams) (d v : Int) (vseg : Nat) : Int :=
  if v ≠ 0 ∧ v.sign ≠ d.sign then slowBy v p.a
  else if d.natAbs ≤ brakeDistance p.a v.natAbs then signed d.sign (max (v.natAbs - p.a) (min p.vcreep vseg))
  else signed d.sign (towardSeg v.natAbs vseg p.a)

/-- R29: the candidate in VELOCITY mode. -/
def velocityCandidate (p : AxisParams) (d : Dir) (v : Int) (vseg : Nat) : Int :=
  if v ≠ 0 ∧ v.sign ≠ dirSign d then slowBy v p.a else signed (dirSign d) (towardSeg v.natAbs vseg p.a)

def BrakeRate.of (p : AxisParams) : BrakeRate → Nat
  | .normal => p.a
  | .quick => p.aQuick

def StopKind.of (p : AxisParams) : StopKind → Nat
  | .controlled => p.a
  | .quick => p.aQuick

/-- The velocity the profile proposes in TRACKING or STOPPING (R24, R25, R27, R29, R30, R31). -/
def AxisUnit.candidate (p : AxisParams) (a : AxisUnit) : Int :=
  match a.state with
  | .stopping k => slowBy a.v (k.of p)
  | _ =>
    match a.mode with
    | none => 0
    | some (.position t vseg) => positionCandidate p (t - a.p) a.v vseg
    | some (.velocity d vseg) => velocityCandidate p d a.v vseg
    | some (.brake r) => slowBy a.v (r.of p)

/-- The rate of the braking option (R66). -/
def AxisUnit.brakingRate (p : AxisParams) (a : AxisUnit) : Nat :=
  if a.state = .stopping .quick ∨ a.mode = some (.brake .quick) then p.aQuick else p.a

/-- The braking option (R66). -/
def AxisUnit.brakingOption (p : AxisParams) (a : AxisUnit) : Int := slowBy a.v (a.brakingRate p)

/-! ## The advance (R26) -/

/-- Where an option leaves the axis. -/
structure Advance where
  p : Int
  f : Int
  v : Int
  arrived : Bool
  deriving DecidableEq, Repr, Inhabited

/-- X split into whole counts and fraction, saturating at the range ends with V kept (R26). -/
def splitPosition (x v : Int) : Advance :=
  if posMax < x / 65536 then { p := posMax, f := 0, v := v, arrived := false }
  else if x / 65536 < posMin then { p := posMin, f := 0, v := v, arrived := false }
  else { p := x / 65536, f := x - x / 65536 * 65536, v := v, arrived := false }

/-- The advance of R26 for a velocity, with the arrival test and clamp of POSITION mode. -/
def AxisUnit.advanceBy (a : AxisUnit) (v' : Int) : Advance :=
  let x := a.p * 65536 + a.f + v'
  match a.mode with
  | some (.position t _) =>
    if (t - a.p).sign ≠ 0 ∧ (t * 65536 - x) * (t - a.p).sign ≤ 0 then { p := t, f := 0, v := 0, arrived := true }
    else splitPosition x v'
  | _ => splitPosition x v'

/-- R24: at the start of a tick the move is complete. -/
def AxisUnit.complete (p : AxisParams) (a : AxisUnit) : Bool :=
  match a.mode with
  | some (.position t _) => decide (t - a.p = 0) && decide (a.v.natAbs ≤ p.a)
  | _ => false

/-! ## Envelopes -/

/-- The stop point (R56). -/
def stopPoint (par : AxisParams) (p e v : Int) : Int :=
  let front := if 0 < v then max p e else if v < 0 then min p e else p
  satPos (front + v.sign * ((brakeDistance par.a v.natAbs + tickTravel v.natAbs : Nat) : Int))

/-- The current envelope of a REFERENCED axis (R57). -/
def currentRange (par : AxisParams) (p e v : Int) : Range where
  lo := satPos (min (min p e) (stopPoint par p e v) - par.margin)
  hi := satPos (max (max p e) (stopPoint par p e v) + par.margin)

/-- The slew current envelope (R57, R58). -/
def slewEnvelope (par : AxisParams) (referenced : Bool) (p e v : Int) : Range :=
  if referenced then currentRange par p e v else Range.whole

/-- The rake envelope hi (R57, R59). -/
def rakeEnvelopeHi (par : AxisParams) (referenced : Bool) (p e v : Int) : Int :=
  if referenced then (currentRange par p e v).hi else par.softHi

/-- The request that gives the slew its requested travel (R61), from the state at the axis's turn. -/
def AxisUnit.travelGoal (turn : AxisState) (a : AxisUnit) : Option Goal :=
  match turn with
  | .tracking _ => a.mode
  | .starting _ => a.pending.map (·.goal)
  | .stopping _ => a.pending.map (·.goal)
  | .settling => a.pending.map (·.goal)
  | .off => none
  | .faulted => none

/-- Slew requested travel (R61): absent for BRAKE, for none, and when T = P. -/
def AxisUnit.travel (turn : AxisState) (a : AxisUnit) : Option Travel :=
  match a.travelGoal turn with
  | some (.position t _) => (dirOf (t - a.p)).map (fun d => { dir := d, target := some t })
  | some (.velocity d _) => some { dir := d, target := none }
  | some (.brake _) => none
  | none => none

/-- The smallest range that holds both (R62). -/
def Range.span (a b : Range) : Range := { lo := min a.lo b.lo, hi := max a.hi b.hi }

/-- The approach envelope on a base (R62). -/
def approachRange (par : AxisParams) (base : Range) (t : Option Travel) : Range :=
  match t with
  | none => base
  | some { dir := .pos, target := none } => { lo := base.lo, hi := satPos (base.hi + par.lead) }
  | some { dir := .pos, target := some g } =>
    { lo := base.lo, hi := satPos (max base.hi (min (base.hi + par.lead) (g + par.margin))) }
  | some { dir := .neg, target := none } => { lo := satPos (base.lo - par.lead), hi := base.hi }
  | some { dir := .neg, target := some g } =>
    { lo := satPos (min base.lo (max (base.lo - par.lead) (g - par.margin))), hi := base.hi }

/-! ## Ceilings and the checks -/

/-- R64: of two bounds, the smaller; of equal ones, the first. -/
def lowerCeiling (best : Option (Int × Nat)) (r : GuardRow) : Option (Int × Nat) :=
  match r.zone.ceiling, best with
  | none, b => b
  | some c, none => some (c, r.zone.number)
  | some c, some (b, n) => if c < b then some (c, r.zone.number) else some (b, n)

/-- The ceiling limit and the zone named with it (R64), from the slew current envelope as last written. -/
def State.ceilingLimit (s : State) : Option (Int × Nat) :=
  (s.zones.rows.filter (fun r => s.env.slew.touches r.zone)).foldl lowerCeiling none

/-- R68. -/
def rakePasses (limit : Option (Int × Nat)) (hi : Int) : Bool :=
  match limit with
  | none => true
  | some (c, _) => decide (hi ≤ c)

/-- The rake envelope hi is at most the zone's ceiling, if it has one (R67). -/
def underCeiling (rakeHi : Int) (z : Zone) : Bool :=
  match z.ceiling with
  | none => true
  | some c => decide (rakeHi ≤ c)

/-- R67: every touched zone is HELD, and the rake stands under every touched ceiling. -/
def slewPasses (rows : List GuardRow) (rakeHi : Int) (env : Range) : Bool :=
  rows.all (fun r => !env.touches r.zone || (decide (r.guard = .held) && underCeiling rakeHi r.zone))

/-- The zone an ENVELOPE_BREACH of the slew names (R70); of the zones with a ceiling, the touched ones alone count (log entry
27, DESIGN CHOICE). -/
def slewBreachZone (rows : List GuardRow) (rakeHi : Int) (env : Range) : Option Nat :=
  match rows.find? (fun r => env.touches r.zone && !decide (r.guard = .held)) with
  | some r => some r.zone.number
  | none => (rows.find? (fun r => env.touches r.zone && !underCeiling rakeHi r.zone)).map (·.zone.number)

/-- What the check returns (R69, R70): the option taken, the candidate it refused, whether the option taken failed. -/
structure Choice where
  taken : Advance
  refused : Option Advance
  failed : Bool
  deriving DecidableEq, Repr, Inhabited

/-- R66, R69, R70: the candidate if it passes, otherwise the braking option; a candidate that is the braking option is
judged once. -/
def AxisUnit.choose (p : AxisParams) (a : AxisUnit) (passes : Advance → Bool) : Choice :=
  let cand := a.advanceBy (a.candidate p)
  let brk := a.advanceBy (a.brakingOption p)
  if passes cand then { taken := cand, refused := none, failed := false }
  else if a.candidate p = a.brakingOption p then { taken := cand, refused := none, failed := true }
  else { taken := brk, refused := some cand, failed := !passes brk }

/-! ## Speed reference and following error -/

/-- FB = (P − E) · Kp / 16, truncated toward zero (R33). -/
def feedback (par : AxisParams) (p e : Int) : Int := truncated ((p - e) * par.kp) 16

/-- R33: FF + FB clamped into [−1000, +1000]. -/
def speedReference (par : AxisParams) (p e v : Int) : Int :=
  clampInt (-1000) 1000 (nearest (v * 1000) par.vrated + feedback par p e)

/-- R35: |P − E| exceeds the following limit. -/
def followingError (par : AxisParams) (p e : Int) : Bool := decide (par.followLimit < (p - e).natAbs)

/-! ## An axis's turn -/

/-- What a turn reports (R20): a breach with its zone, a following error, the completion of a move, its arrival and its
receiver, a zero velocity and its receiver, the end of a stop. -/
structure TurnReport where
  breach : Option (Option Nat)
  following : Bool
  completed : Bool
  arrival : Option Requester
  zeroVelocity : Option Requester
  stopEnd : Bool
  deriving DecidableEq, Repr, Inhabited

def TurnReport.quiet : TurnReport where
  breach := none
  following := false
  completed := false
  arrival := none
  zeroVelocity := none
  stopEnd := false

/-- A turn in TRACKING or STOPPING, once the velocity is chosen (R24, R26, R27, R30, R32, R33, R35, R44): `done` says that
the move is complete. -/
def AxisUnit.finishTurn (par : AxisParams) (a : AxisUnit) (adv : Advance) (done : Bool) : AxisUnit :=
  let a1 := { a with
    p := adv.p, f := adv.f, v := adv.v, tickV := adv.v, speedRef := speedReference par adv.p a.e adv.v }
  match a.state with
  | .stopping _ => if adv.v = 0 then a1.toHold par.holdTime else a1
  | _ =>
    if done then a1.toHold par.holdTime
    else
      match a.mode with
      | some (.brake _) => if adv.v = 0 then { a1 with mode := none, requester := none } else a1
      | _ => a1

/-- The reports of such a turn; a breach is reported when the option taken failed and leaves a velocity (R70). -/
def AxisUnit.turnReport (par : AxisParams) (a : AxisUnit) (adv : Advance) (done failed : Bool) (zone : Option Nat) :
    TurnReport where
  breach := if failed ∧ adv.v ≠ 0 then some zone else none
  following := followingError par adv.p a.e
  completed := match a.state with | .stopping _ => false | _ => done
  arrival := match a.state with | .stopping _ => none | _ => if done then a.requester else none
  zeroVelocity :=
    match a.state, a.mode with
    | .tracking _, some (.brake _) => if adv.v = 0 then a.requester else none
    | _, _ => none
  stopEnd := match a.state with | .stopping _ => decide (adv.v = 0) | _ => false

/-- A turn in OFF or FAULTED (R36, R53). -/
def AxisUnit.restTurn (a : AxisUnit) : AxisUnit := { a.rest with tickV := 0, speedRef := 0 }

/-- A turn in STARTING or SETTLING: P, F and V kept, the reference as R53 gives. -/
def AxisUnit.waitTurn (par : AxisParams) (a : AxisUnit) : AxisUnit :=
  { a with
    tickV := a.v
    speedRef :=
      match a.state with
      | .starting .releasing => clampInt (-1000) 1000 (feedback par a.p a.e)
      | _ => 0 }

end Sys2Proof.Machine
end

