-- ==== Sys2Proof/Machine/Tick.lean ====
section
/-! DEFINITION. The profile tick as one operation (R20, R65): the rake's turn, the slew's turn, the zone guard's event
(R85), and then the reports the turns made, delivered as the tick ends (R20, R21; log entry 13). -/

namespace Sys2Proof.Machine

/-- An axis moves under the profile in TRACKING and STOPPING (R20). -/
def AxisState.profiled : AxisState → Bool
  | .tracking _ => true
  | .stopping _ => true
  | .off => false
  | .starting _ => false
  | .settling => false
  | .faulted => false

/-- The option the tick starts with when the move is complete at its start (R24): no advance, V and F zero. -/
def AxisUnit.stand (a : AxisUnit) : Advance := { p := a.p, f := 0, v := 0, arrived := true }

/-- An axis's turn (R20): the axis after it, its reports, and the refused candidate's advance. `passes` judges an option and
`zone` names the zone of a breach. -/
def AxisUnit.turn (par : AxisParams) (a : AxisUnit) (passes : Advance → Bool) (zone : Advance → Option Nat) :
    AxisUnit × TurnReport × Option Advance :=
  match a.state with
  | .off => (a.restTurn, TurnReport.quiet, none)
  | .faulted => (a.restTurn, TurnReport.quiet, none)
  | .starting _ => (a.waitTurn par, TurnReport.quiet, none)
  | .settling => (a.waitTurn par, TurnReport.quiet, none)
  | .tracking _ =>
    if a.complete par then
      (a.finishTurn par a.stand true, a.turnReport par a.stand true false none, none)
    else
      let c := a.choose par passes
      (a.finishTurn par c.taken c.taken.arrived,
        a.turnReport par c.taken c.taken.arrived c.failed (zone c.taken), c.refused)
  | .stopping _ =>
    let c := a.choose par passes
    (a.finishTurn par c.taken false, a.turnReport par c.taken false c.failed (zone c.taken), c.refused)

/-- The rake envelope hi that an option would write. -/
def State.rakeHiOf (s : State) (adv : Advance) : Int :=
  rakeEnvelopeHi (s.params .rake) s.rake.referenced adv.p s.rake.e adv.v

/-- The slew current envelope that an option would write. -/
def State.slewRangeOf (s : State) (adv : Advance) : Range :=
  slewEnvelope (s.params .slew) s.slew.referenced adv.p s.slew.e adv.v

/-- The velocity an envelope is built with (R55): zero in STARTING and SETTLING. -/
def AxisUnit.envV (a : AxisUnit) (turn : AxisState) : Int := if turn.profiled then a.v else 0

/-- The rake's turn, and the rake envelope hi it writes (R55, R59, R60). -/
def State.tickRake (s : State) : State × TurnReport :=
  let par := s.params .rake
  let r := s.rake.turn par (fun adv => rakePasses s.ceilingLimit (s.rakeHiOf adv)) (fun _ => s.ceilingLimit.map (·.2))
  let hi :=
    match s.comm.record with
    | none => posMax
    | some _ => rakeEnvelopeHi par r.1.referenced r.1.p r.1.e (r.1.envV s.rake.state)
  ({ s with rake := r.1, env := { s.env with rakeHi := hi } }, r.2.1)

/-- What the slew's turn writes of the envelopes (R55 to R62): `a` is the axis after its turn. -/
def State.slewEnvelopes (s : State) (a : AxisUnit) (refused : Option Advance) : Envelopes :=
  match s.comm.record with
  | none =>
    { slew := Range.whole, approach := Range.whole, travel := none, velLeft := 0, rakeHi := s.env.rakeHi }
  | some _ =>
    let par := s.params .slew
    let cur := slewEnvelope par a.referenced a.p a.e (a.envV s.slew.state)
    let base :=
      match refused with
      | none => cur
      | some adv => (s.slewRangeOf adv).span cur
    let t := a.travel s.slew.state
    { slew := cur, approach := approachRange par base t, travel := t, velLeft := a.v, rakeHi := s.env.rakeHi }

/-- The slew's turn, after the rake's in the same tick (R65). -/
def State.tickSlew (s : State) : State × TurnReport :=
  let r := s.slew.turn (s.params .slew)
    (fun adv => slewPasses s.zones.rows s.env.rakeHi (s.slewRangeOf adv))
    (fun adv => slewBreachZone s.zones.rows s.env.rakeHi (s.slewRangeOf adv))
  ({ s with slew := r.1, env := s.slewEnvelopes r.1 r.2.2 }, r.2.1)

/-- The faults a turn reported (R70, R35). -/
def State.reportTurn (s : State) (x : Axis) (t : TurnReport) : State :=
  let s1 :=
    match t.breach with
    | some z => s.report .envelopeBreach { axis := some x, zone := z, peer := none }
    | none => s
  if t.following then s1.report .following (FaultFields.ofAxis x) else s1

/-- The post-motion sequence that a turn began (R44, R47): a request that waited for the stop is taken, and a hold time of 0
ends at once. -/
def State.postMotion (s : State) (x : Axis) (t : TurnReport) : State :=
  let s1 := if t.stopEnd then s.takeAtStopEnd x else s
  if t.stopEnd ∨ t.completed then s1.zeroHold x else s1

/-- The first direction of a homing search (R12). -/
def State.firstDir (s : State) : Axis → Dir
  | .slew => (s.params .slew).homeDir
  | .rake => .neg

/-- The zero velocity reported to the position unit (R14, R15): REVERSING turns to RETURN, TURNING to DESCENT, each with its
VELOCITY request. -/
def State.zeroVelocity (s : State) (x : Axis) : State :=
  match (s.axis x).leg with
  | some .reversing =>
    (s.setAxis x { s.axis x with leg := some .returning }).request x
      { goal := .velocity (dirOpposite (s.firstDir x)) (s.params x).vhome, asker := .positionUnit }
  | some .turning =>
    (s.setAxis x { s.axis x with leg := some .descent }).request x
      { goal := .velocity .neg (s.params x).vhome, asker := .positionUnit }
  | _ => s

/-- An arrival delivered to its receiver (R27): the sequencer, or the enable monitor, whose jog ends (R148). -/
def State.arrived (s : State) (x : Axis) : Option Requester → State
  | some .sequencer => s.seqArrived x
  | some .enableMonitor =>
    match s.mon.run with
    | .jog y _ _ => if y = x then { s with mon := { s.mon with run := .none } } else s
    | _ => s
  | some .positionUnit => s
  | none => s

/-- The reports a turn made, delivered (R20). -/
def State.deliver (s : State) (x : Axis) (t : TurnReport) : State :=
  let s1 := s.arrived x t.arrival
  let s2 := if t.zeroVelocity = some .positionUnit then s1.zeroVelocity x else s1
  if t.stopEnd then s2.stopEnded x else s2

/-- The whole tick (R20, R65, R85). -/
def State.profileTick (s : State) : State :=
  let r := ({ s with tickLeft := Config.tickPeriod } : State).tickRake
  let w := r.1.tickSlew
  let z := w.1.zoneTick s
  (((((z.reportTurn .rake r.2).reportTurn .slew w.2).postMotion .rake r.2).postMotion .slew w.2).deliver .rake
    r.2).deliver .slew w.2

end Sys2Proof.Machine
end

