-- ==== Sys2Proof/Machine/Handshake.lean ====
section
/-! DEFINITION. The rows of the profile tick and of the drive handshake (chapters 2 and 3), the local stop chain (R51), the
PWM period (R34), the zone guard's and the sequencer's timers (R91, R100, R123, R130, R132), and the STOP line (R175). -/

namespace Sys2Proof.Machine

/-- PROFILE_TICK (R20). -/
def execProfileTick (s : State) : Host.Outcome State Fault Refusal := live State.profileTick s

/-! ## The handshake -/

/-- Drive-ready becomes active: taken in AWAIT_READY, without effect elsewhere (R40, R41, R52). -/
def State.readyActive (s : State) (x : Axis) : State :=
  if (s.axis x).ready then s
  else
    let s1 := s.setAxis x { s.axis x with ready := true }
    if (s.axis x).state = .starting .awaitReady then s1.readyTaken x else s1

/-- DRIVE_READY_ACTIVE (R41). -/
def execDriveReadyActive (axis : Axis) (s : State) : Host.Outcome State Fault Refusal :=
  live (fun t => t.readyActive axis) s

/-- The axis enters FAULTED and DRIVE is reported with it (R41, R50). -/
def State.driveFault (s : State) (x : Axis) : State := (s.faultAxis x).report .drive (FaultFields.ofAxis x)

/-- The ready limit expires in AWAIT_READY (R41). -/
def State.readyLimitEnds (s : State) (x : Axis) : State :=
  if (s.axis x).state = .starting .awaitReady then s.driveFault x else s

/-- READY_LIMIT_EXPIRY (R41). -/
def execReadyLimitExpiry (axis : Axis) (s : State) : Host.Outcome State Fault Refusal :=
  live (fun t => t.readyLimitEnds axis) s

/-- The brake release time expires in RELEASING (R42). -/
def State.releaseEnds (s : State) (x : Axis) : State :=
  if (s.axis x).state = .starting .releasing then s.releaseExpired x else s

/-- BRAKE_RELEASE_EXPIRY (R42). -/
def execBrakeReleaseExpiry (axis : Axis) (s : State) : Host.Outcome State Fault Refusal :=
  live (fun t => t.releaseEnds axis) s

/-- The hold time expires (R46). -/
def State.holdEnds (s : State) (x : Axis) : State :=
  if (s.axis x).state = .tracking true then s.holdExpired x else s

/-- HOLD_EXPIRY (R46). -/
def execHoldExpiry (axis : Axis) (s : State) : Host.Outcome State Fault Refusal := live (fun t => t.holdEnds axis) s

/-- The brake set time expires (R46). -/
def State.setEnds (s : State) (x : Axis) : State := if (s.axis x).state = .settling then s.setExpired x else s

/-- BRAKE_SET_EXPIRY (R46). -/
def execBrakeSetExpiry (axis : Axis) (s : State) : Host.Outcome State Fault Refusal := live (fun t => t.setEnds axis) s

/-- The states in which drive-ready becoming inactive is a drive loss (R50). -/
def AxisState.losesDrive : AxisState → Bool
  | .off => false
  | .starting .awaitReady => false
  | .starting .releasing => true
  | .tracking _ => true
  | .stopping _ => true
  | .settling => true
  | .faulted => false

/-- Drive-ready becomes inactive (R50). -/
def State.readyInactive (s : State) (x : Axis) : State :=
  if (s.axis x).ready then
    let s1 := s.setAxis x { s.axis x with ready := false }
    if (s.axis x).state.losesDrive then s1.driveFault x else s1
  else s

/-- DRIVE_LOSS (R50). -/
def execDriveLoss (axis : Axis) (s : State) : Host.Outcome State Fault Refusal :=
  live (fun t => t.readyInactive axis) s

/-! ## The local stop chain (R51) -/

def State.chainOpens (s : State) : State :=
  if s.chainOpen then s else ({ s with chainOpen := true } : State).chainOpened

/-- LOCAL_STOP_CHAIN_OPEN (R51). -/
def execLocalStopChainOpen (s : State) : Host.Outcome State Fault Refusal := live State.chainOpens s

/-- LOCAL_STOP_CHAIN_CLOSE (R51). -/
def execLocalStopChainClose (s : State) : Host.Outcome State Fault Refusal :=
  live (fun t => { t with chainOpen := false }) s

/-! ## The PWM output (R34, R53) -/

/-- PWM_PERIOD_START (R34): the output takes the reference last computed, which is 0 once the drive enable is off (R53). -/
def execPwmPeriodStart (axis : Axis) (s : State) : Host.Outcome State Fault Refusal :=
  live (fun t => t.setAxis axis { t.axis axis with pwm := (t.axis axis).speedRef }) s

/-! ## Zone guard timers -/

/-- CLAIM_WINDOW_EXPIRY (R91). -/
def execClaimWindowExpiry (s : State) : Host.Outcome State Fault Refusal := live State.windowExpired s

/-- The zone wait timer reaches its limit, which it can only while it runs (R99, R100). -/
def State.zoneWaitEnds (s : State) : State := if s.zoneWaitRuns then s.zoneWaitExpired else s

/-- ZONE_TIMEOUT (R100). -/
def execZoneTimeout (s : State) : Host.Outcome State Fault Refusal := live State.zoneWaitEnds s

/-! ## Sequencer timers -/

/-- HOLD_OFF_EXPIRY (R123). -/
def execHoldOffExpiry (s : State) : Host.Outcome State Fault Refusal := live State.holdOffExpires s

/-- The step timer reaches the step time limit, which it can only while it runs (R132). -/
def State.stepTimeEnds (s : State) : State :=
  if s.stepTimerRuns then
    ({ s with seq := { s.seq with stepElapsed := s.stepLimitMs } } : State).report .stepTimeout s.timeoutFields
  else s

/-- STEP_TIMEOUT (R132). -/
def execStepTimeout (s : State) : Host.Outcome State Fault Refusal := live State.stepTimeEnds s

/-- DWELL_END (R130, R131). -/
def execDwellEnd (s : State) : Host.Outcome State Fault Refusal := live State.dwellEnds s

/-! ## The STOP line (R175) -/

/-- The line becomes ASSERTED: the level changes, and in OPERATIONAL its reactions follow. -/
def State.lineAsserts (s : State) : State :=
  if s.fault.lineAsserted then s
  else
    let s1 : State := { s with fault := { s.fault with lineAsserted := true } }
    if s.comm.mode = .operational then s1.lineReactions else s1

/-- STOP_LINE_ASSERTED (R175). -/
def execStopLineAsserted (s : State) : Host.Outcome State Fault Refusal := live State.lineAsserts s

/-- The line becomes RELEASED: only the level changes. A line that this station still drives stays ASSERTED (R170, R175). -/
def State.lineReleases (s : State) : State :=
  if s.fault.drivesStop then s else { s with fault := { s.fault with lineAsserted := false } }

/-- STOP_LINE_RELEASED (R175). -/
def execStopLineReleased (s : State) : Host.Outcome State Fault Refusal := live State.lineReleases s

end Sys2Proof.Machine
end

