-- ==== Sys2Proof/Machine/Bus.lean ====
section
/-! DEFINITION. The bus interface (chapter 9): the discard report (R156), the sorting of a passing frame (R157, R166), the
replies (R164), and the transmitter (R158 to R161). The receiver's bit-by-bit work is in Receiver.lean. -/

namespace Sys2Proof.Machine

/-! ## Discards and frames received -/

/-- A discarded frame is reported to the sequencer in every mode but START and ISOLATED (R156, R166, R124). -/
def State.discard (s : State) : State :=
  match s.comm.mode with
  | .start => s
  | .unconfigured => s.annul
  | .operational => s.annul
  | .commission => s.annul
  | .isolated => s

/-- The receiver at the end of a frame that another sender drove (R155): HUNTING with the count at 11, the frame's characters
in the buffer. -/
def Receiver.tookFrame (rx : Receiver) (frame : List Byte) : Receiver :=
  { rx with state := .hunting, recessive := 11, buffer := frame, bits := [], own := false }

/-- The modes in which a passing frame is examined at all (R114, R166): START and UNCONFIGURED with strap 0 hand none on. -/
def State.examines (s : State) : Bool :=
  match s.comm.mode with
  | .start => false
  | .unconfigured => decide (s.comm.straps ≠ 0)
  | .operational => true
  | .commission => true
  | .isolated => true

/-- A passing frame that is not this station's own (R157, R166): the duplicate check first, then the hand-off by class, which
ISOLATED does not make. -/
def State.sortFrame (s : State) (snd : Sender) (handOff : State → State) : State :=
  if s.examines then
    let s1 := s.checkDuplicate snd
    if s1.comm.mode = .isolated then s1 else handOff s1
  else s

/-- A frame row: the frame ends at line idle, and is sorted, or discarded when it cannot pass R156. -/
def State.receive (s : State) (frame : List Byte) (wf : Bool) (snd : Sender) (handOff : State → State) : State :=
  let s1 : State := { s with bus := { s.bus with rx := s.bus.rx.tookFrame frame } }
  if wf then s1.sortFrame snd handOff else s1.discard

/-! ## Replies (R164) -/

/-- The service outcomes, in the order of their codes 1 to 8 (section 9.2). -/
inductive SvcOutcome where
  | ok
  | busy
  | refusedState
  | refusedWel
  | refusedLocked
  | refusedArgs
  | checkMismatch
  | notErased
  deriving DecidableEq, Repr, Inhabited

def SvcOutcome.code : SvcOutcome → Byte
  | .ok => 1
  | .busy => 2
  | .refusedState => 3
  | .refusedWel => 4
  | .refusedLocked => 5
  | .refusedArgs => 6
  | .checkMismatch => 7
  | .notErased => 8

/-- What an owner answers a request with: a reply at once, or a self-timed operation that replies at its completion. -/
inductive Answer where
  | reply (outcome : SvcOutcome) (data : List Byte)
  | job (op : StoreOp) (time : Nat)
  deriving DecidableEq, Repr, Inhabited

def Bus.place (b : Bus) (n : Nat) : Place := if n = 0 then b.place0 else b.place1

def Bus.setPlace (b : Bus) (n : Nat) (p : Place) : Bus :=
  if n = 0 then { b with place0 := p } else { b with place1 := p }

/-- A FREE place of the reply FIFO. -/
def Bus.freePlace (b : Bus) : Option Nat :=
  if b.place0 = .free then some 0 else if b.place1 = .free then some 1 else none

/-- A SERVICE_REPLY frame of this station (section 9.2). -/
def State.replyFrame (s : State) (r : ReplyTo) (o : SvcOutcome) (data : List Byte) : List Byte :=
  frameBytes 5#3 s.self (r.requester.setWidth 8 :: r.kind :: r.tag :: o.code :: data)

/-- The reply of a RESERVED place is handed in: the place becomes READY (R164). A place that is no longer RESERVED lost its
reply at an entry into ISOLATED (R166). -/
def State.handReply (s : State) (n : Nat) (o : SvcOutcome) (data : List Byte) : State :=
  match s.bus.place n with
  | .reserved r =>
    let b := s.bus.setPlace n (.ready (s.replyFrame r o data))
    { s with bus := ({ b with readyOrder := b.readyOrder ++ [n] } : Bus).startSilence }
  | .free => s
  | .ready _ => s

/-- An owner's answer carried out: its reply handed in, or the store made busy with the operation. What the operation writes
it writes at its completion, and until then IDENTIFY shows the slot as it was (log entry 31, DESIGN CHOICE). -/
def State.answer (s : State) (n : Nat) : Answer → State
  | .reply o data => s.handReply n o data
  | .job op time => { s with store := { s.store with job := some { op := op, left := time, place := n } } }

/-- A SERVICE_REQ handed on by R157 (R164): not taken when it names another station or no place is FREE; answered BUSY while
a restart is pending (R180); otherwise given to its owner, the jumper (R179) and the straps (R181) being read then. -/
def State.service (s : State) (kind : Byte) (r : ServiceReq) (owner : State → State × Answer) : State :=
  if r.target.toNat = s.station then
    match s.bus.freePlace with
    | none => s
    | some n =>
      let s1 : State := { s with
        comm := { s.comm with jumper := r.jumper, strapLevel := r.straps }
        bus := s.bus.setPlace n (.reserved { requester := r.sender.station, kind := kind, tag := r.tag }) }
      if s1.comm.restartPending then s1.handReply n .busy []
      else
        let w := owner s1
        w.1.answer n w.2
  else s

/-- A request row: the SERVICE_REQ frame received, sorted and taken. -/
def State.receiveRequest (s : State) (kind : Byte) (r : ServiceReq) (owner : State → State × Answer) : State :=
  s.receive (serviceFrame kind r) r.wf r.sender (fun t => t.service kind r owner)

/-! ## The transmitter (R158, R159) -/

/-- The receiver's share of R158's moment: HUNTING with the line idle, 11 bit times recessive. -/
def Receiver.atIdle (rx : Receiver) : Bool := decide (rx.state = .hunting) && decide (11 ≤ rx.recessive)

/-- The receiver taking the start edge of this station's own transmission. -/
def Receiver.startOwn (rx : Receiver) : Receiver :=
  { rx with state := .startCheck, recessive := 11, buffer := [], lastEdge := 0, bits := [], own := true }

/-- The frame that a start sends (R159): the status, built now, if one is pending and the first due time has passed; otherwise
the reply that became READY first. -/
def State.nextFrame (s : State) : Option (TxSource × List Byte) :=
  if s.bus.statusPending && s.bus.firstDue then some (.status, s.statusFrame)
  else
    match s.bus.readyOrder with
    | [] => none
    | n :: _ =>
      match s.bus.place n with
      | .ready f => some (.reply n, f)
      | .free => none
      | .reserved _ => none

/-- A transmission starts (R158, R159). -/
def State.startTransmit (s : State) : State :=
  if s.sends ∧ s.bus.tx = .quiet ∧ s.bus.rx.atIdle then
    match s.nextFrame with
    | some (src, f) =>
      { s with bus := { s.bus with
          tx := .sending src f 0
          rx := s.bus.rx.startOwn
          statusPending := if src = .status then false else s.bus.statusPending } }
    | none => s
  else s

/-- R161 at the completion of an own frame: the timer restarts if the queue still holds a sendable frame, and stops
otherwise. -/
def Bus.completeSilence (b : Bus) (sends : Bool) : Bus :=
  { b with silence := if sends && b.sendable then .running 0 else .stopped }

/-- The reply place of a completed frame becomes FREE (R159). -/
def Bus.release (b : Bus) : TxSource → Bus
  | .status => b
  | .reply n => { b.setPlace n .free with readyOrder := b.readyOrder.filter (fun m => !decide (m = n)) }

/-- An own frame has been read back to its end (R158): the transmitter is QUIET, and the queue, the silence timer and the fault
unit are told (R159, R161, R167). -/
def State.frameSent (s : State) (src : TxSource) : State :=
  { s with
    bus := ({ s.bus.release src with tx := .quiet } : Bus).completeSilence s.sends
    fault := { s.fault with sentSinceSilence := true } }

/-- The receiver at the stop bit of the last character of this station's own frame (R154), times counted from its start. -/
def Receiver.sentOwn (rx : Receiver) (frame : List Byte) : Receiver :=
  { rx with
    state := .between, recessive := 1, buffer := frame, lastEdge := 10 * (frame.length - 1), bits := [], own := true }

/-- An own frame completes (R158, R159, R161, R167). -/
def State.completeFrame (s : State) : State :=
  match s.bus.tx with
  | .quiet => s
  | .sending src f _ => ({ s with bus := { s.bus with rx := s.bus.rx.sentOwn f } } : State).frameSent src

/-- A due time of the status schedule (R160). -/
def State.dueTime (s : State) : State :=
  if s.sends ∧ s.bus.nextDue.isSome then
    { s with bus := ({ s.bus with statusPending := true, firstDue := true, nextDue := some Config.statusPeriod } :
        Bus).startSilence }
  else s

/-- The silence timer reaches 250 ms (R161). -/
def State.silenceEnds (s : State) : State :=
  match s.bus.silence with
  | .running _ => ({ s with bus := { s.bus with silence := .reported } } : State).report .busSilent FaultFields.none
  | .stopped => s
  | .reported => s

/-! ## Meanings of the transmitter's rows -/

/-- TRANSMIT_START (R158, R159). -/
def execTransmitStart (s : State) : Host.Outcome State Fault Refusal := live State.startTransmit s

/-- FRAME_COMPLETE (R158, R159, R161). -/
def execFrameComplete (s : State) : Host.Outcome State Fault Refusal := live State.completeFrame s

/-- STATUS_DUE (R160). -/
def execStatusDue (s : State) : Host.Outcome State Fault Refusal := live State.dueTime s

/-- BUS_SILENT (R161). -/
def execBusSilent (s : State) : Host.Outcome State Fault Refusal := live State.silenceEnds s

end Sys2Proof.Machine
end

