-- ==== Sys2Proof/Machine/Frames.lean ====
section
/-! DEFINITION. The STATUS, STOP, ENABLE and SERVICE_REPLY frames (R109, R163, R141, R157), the aging of the peer view
(R111) and the end of the enable (R142). -/

namespace Sys2Proof.Machine

/-! ## STATUS (R108 to R110) -/

/-- A status arrival for a held record: the record replaced, then handed to the zone guard and to the sequencer by its roles
(R109, R110). R110 leaves the order of the two hand-offs open; the zone guard's comes first (log entry 28, DESIGN CHOICE). A
station without a record is ignored (R108). -/
def State.statusArrival (s : State) (n : Nat) (p : StatusPayload) : State :=
  match findPeer s.peers n with
  | none => s
  | some r =>
    let s1 : State := { s with peers := modPeer n (PeerRecord.hear (peerStatusOf p)) s.peers }
    let s2 := if r.zoneRole then s1.zoneArrival n else s1
    if r.scriptRole then s2.seqArrival n else s2

def State.rxStatus (s : State) (snd : Sender) (p : StatusPayload) : State :=
  s.receive (frameBytes 3#3 snd (statusBytes p)) p.wf snd (fun t => t.statusArrival snd.station.toNat p)

/-- STATUS_FRAME (R109). -/
def execStatusFrame (sender : Sender) (payload : StatusPayload) (s : State) : Host.Outcome State Fault Refusal :=
  live (fun t => t.rxStatus sender payload) s

/-! ## STOP (R163) -/

/-- The three hand-offs of a STOP frame: a controlled stop of both axes, the end of the conversion without an outcome, the end
of any run. -/
def State.stopTaken (s : State) : State := ((s.stopBoth .controlled).endConversion none).endRun

def State.rxStop (s : State) (snd : Sender) : State := s.receive (frameBytes 0#3 snd []) true snd State.stopTaken

/-- STOP_FRAME (R163). -/
def execStopFrame (sender : Sender) (s : State) : Host.Outcome State Fault Refusal := live (fun t => t.rxStop sender) s

/-! ## ENABLE (R141, R142) -/

/-- The consoles of the record in force. -/
def State.consoles (s : State) : List Nat :=
  match s.comm.record with
  | some r => r.consoles
  | none => []

/-- The header station is one of the configured consoles. -/
def State.fromConsole (s : State) (snd : Sender) : Bool := s.consoles.contains snd.station.toNat

/-- OPERATIONAL or COMMISSION. -/
def State.takesEnable (s : State) : Bool := decide (s.comm.mode = .operational ∨ s.comm.mode = .commission)

/-- The three conditions of R141. -/
def State.acceptsEnable (s : State) (snd : Sender) (targets : BitVec 32) : Bool :=
  s.takesEnable && s.fromConsole snd && inTargets targets s.station

/-- An ENABLE handed to the enable monitor: accepted, it restarts the timer, and a flag that was clear becomes set with the
change handed to the sequencer (R141, R135). -/
def State.enableTaken (s : State) (snd : Sender) (targets : BitVec 32) : State :=
  if s.acceptsEnable snd targets then
    let s1 : State := { s with mon := { s.mon with present := true, timer := some Config.enableTime } }
    if s.mon.present then s1 else s1.resume
  else s

def State.rxEnable (s : State) (snd : Sender) (targets : BitVec 32) : State :=
  s.receive (frameBytes 1#3 snd (bytes32 targets)) true snd (fun t => t.enableTaken snd targets)

/-- ENABLE_FRAME (R141). -/
def execEnableFrame (sender : Sender) (targets : BitVec 32) (s : State) : Host.Outcome State Fault Refusal :=
  live (fun t => t.rxEnable sender targets) s

/-- The active run ends with a controlled stop of its axis (R142, R148). -/
def State.endRunStopping (s : State) : State :=
  match s.mon.run.axis with
  | none => s
  | some x => s.endRun.stopAxis x .controlled

/-- The enable timer runs out (R142): the flag clears, the run ends, the sequencer pauses. -/
def State.enableEnds (s : State) : State :=
  if s.mon.timer.isSome then
    (({ s with mon := { s.mon with present := false, timer := none } } : State).endRunStopping).pause
  else s

/-- ENABLE_EXPIRY (R142). -/
def execEnableExpiry (s : State) : Host.Outcome State Fault Refusal := live State.enableEnds s

/-! ## SERVICE_REPLY (R157) -/

def State.rxReply (s : State) (snd : Sender) (requester kind tag outcome : Byte) (data : List Byte) : State :=
  s.receive (frameBytes 5#3 snd (requester :: kind :: tag :: outcome :: data)) (decide (data.length ≤ 36)) snd id

/-- SERVICE_REPLY_FRAME (R157): received, given to the duplicate check, not handed on. -/
def execServiceReplyFrame (sender : Sender) (requester kind tag outcome : Byte) (data : List Byte) (s : State) :
    Host.Outcome State Fault Refusal :=
  live (fun t => t.rxReply sender requester kind tag outcome data) s

/-! ## Freshness (R111) -/

/-- The freshness of a held record. -/
def State.freshnessOf (s : State) (n : Nat) : Option Freshness := (findPeer s.peers n).map (·.freshness)

/-- The record has the role ZONE. -/
def State.zonePeer (s : State) (n : Nat) : Bool := (findPeer s.peers n).any (·.zoneRole)

/-- The age of a FRESH record passes 75 ms. -/
def State.peerToStale (s : State) (n : Nat) : State :=
  if s.freshnessOf n = some .fresh then
    let s1 : State := { s with peers := modPeer n PeerRecord.toStale s.peers }
    if s.zonePeer n then s1.zoneFreshness n true else s1
  else s

/-- PEER_STALE (R111). -/
def execPeerStale (station : BitVec 5) (s : State) : Host.Outcome State Fault Refusal :=
  live (fun t => t.peerToStale station.toNat) s

/-- The age of a STALE record passes 500 ms. -/
def State.peerToLost (s : State) (n : Nat) : State :=
  if s.freshnessOf n = some .stale then
    let s1 := ({ s with peers := modPeer n PeerRecord.toLost s.peers } : State).raiseNotice .peerLost
    if s.zonePeer n then s1.zoneFreshness n false else s1
  else s

/-- PEER_LOST (R111). -/
def execPeerLost (station : BitVec 5) (s : State) : Host.Outcome State Fault Refusal :=
  live (fun t => t.peerToLost station.toNat) s

end Sys2Proof.Machine
end

