-- ==== Sys2Proof/Machine/Commands.lean ====
section
/-! DEFINITION. The COMMAND frames: their addressing and refusals by the bus interface (R162, R180), and the judgement of
each by its owner (R121, R122, R136, R143 to R147, R149, R172). -/

namespace Sys2Proof.Machine

/-! ## Addressing (R162) -/

/-- The command is addressed to this station: in its target set, and from a configured console; in UNCONFIGURED the target
set alone counts. -/
def State.addressed (s : State) (h : CommandHead) : Bool :=
  inTargets h.targets s.station && (decide (s.comm.mode = .unconfigured) || s.fromConsole h.sender)

/-- What the bus interface refuses itself (R162, R180); `defined` says that the axis and direction bytes are defined. -/
def State.busRefusal (s : State) (defined : Bool) : Option CmdOutcome :=
  if s.comm.restartPending then some .refusedBusy
  else if s.comm.mode = .unconfigured then some .refusedState
  else if !defined then some .refusedState
  else none

/-- A COMMAND handed on by R157: an addressed one gets one outcome, the bus interface's or its owner's (R162, R165). -/
def State.command (s : State) (h : CommandHead) (defined : Bool) (owner : State → State × CmdOutcome) : State :=
  if s.addressed h then
    let w :=
      match s.busRefusal defined with
      | some o => (s, o)
      | none => owner s
    w.1.giveOutcome h.sender.station.toNat h.tag.toNat w.2
  else s

/-- A command row: the COMMAND frame received, sorted and taken. -/
def State.receiveCommand (s : State) (kind : Byte) (h : CommandHead) (args : List Byte) (defined : Bool)
    (owner : State → State × CmdOutcome) : State :=
  s.receive (commandFrame kind h args) true h.sender (fun t => t.command h defined owner)

/-! ## CONVERT (R121, R122) -/

/-- IDLE, COMPLETE or ABORTED. -/
def SeqState.atEase : SeqState → Bool
  | .idle => true
  | .complete => true
  | .aborted => true
  | .armed => false
  | .running => false
  | .paused => false

/-- The slot holds the layout for R121: stored PROGRAMMED or LOCKED, not BAD, with a header of that layout. -/
def Slot.holds (sl : Slot) (layout : Nat) : Bool :=
  (decide (sl.held = .programmed) || decide (sl.held = .locked)) && !sl.bad &&
    decide (sl.header.map (·.layout) = some layout)

/-- The slot number, from 1, that holds a layout 1..250, and its step count. -/
def State.findLayout (s : State) (layout : Nat) : Option (Nat × Nat) :=
  if 1 ≤ layout ∧ layout ≤ 250 then
    (s.nv.slots.findIdx? (fun sl => sl.holds layout)).bind fun i =>
      ((s.nv.slots[i]?).bind (·.header)).map (fun h => (i + 1, h.count))
  else none

/-- The script peers of a slot: the stations its counted steps name in peer conditions, each once (R106; log entry 20). -/
def State.scriptPeers (s : State) (slot count : Nat) : List Nat :=
  distinct ((List.range count).flatMap (fun i =>
    match (s.slot slot).bind (fun sl => sl.step? i) with
    | some r => r.conds.map (·.1)
    | none => []))

/-- The conditions of R121 in their order: the first that fails gives its outcome, and otherwise the slot and its count. -/
def State.judgeConvert (s : State) (layout : Nat) : CmdOutcome ⊕ (Nat × Nat) :=
  if s.comm.mode ≠ .operational then .inl .refusedState
  else if !s.seq.state.atEase then .inl .refusedBusy
  else if s.mon.run ≠ .none then .inl .refusedBusy
  else if s.fault.lineAsserted then .inl .refusedStopLine
  else if s.fault.record.isSome then .inl .refusedFault
  else if !(s.slew.referenced && s.rake.referenced) then .inl .refusedNotReferenced
  else
    match s.findLayout layout with
    | none => .inl .refusedNoLayout
    | some (slot, count) =>
      if grantsScript s.station s.peers (s.scriptPeers slot count) then .inr (slot, count) else .inl .refusedPeers

/-- An accepted CONVERT (R122). -/
def State.arm (s : State) (layout slot count console tag delay : Nat) : State :=
  ({ s with
      seq := { s.seq with
        state := .armed, layout := layout, slot := slot, count := count, step := 0, phase := .none
        armed := some (console, tag), holdOff := some (max Config.holdOffMin (min Config.holdOffMax delay)) }
      peers := addScript s.peers (s.scriptPeers slot count) } : State).requestStatus

def State.ownConvert (s : State) (h : CommandHead) (layout : Byte) (delay : BitVec 16) : State × CmdOutcome :=
  match s.judgeConvert layout.toNat with
  | .inl o => (s, o)
  | .inr (slot, count) =>
    (s.arm layout.toNat slot count h.sender.station.toNat h.tag.toNat delay.toNat, .accepted)

def State.rxConvert (s : State) (h : CommandHead) (layout : Byte) (delay : BitVec 16) : State :=
  s.receiveCommand 1 h (layout :: bytes16 delay) true (fun t => t.ownConvert h layout delay)

/-- CONVERT (R121, R122). -/
def execConvert (head : CommandHead) (layout : Byte) (delay : BitVec 16) (s : State) :
    Host.Outcome State Fault Refusal :=
  live (fun t => t.rxConvert head layout delay) s

/-! ## CANCEL (R125, R136) -/

def State.ownCancel (s : State) : State × CmdOutcome :=
  match s.seq.state with
  | .armed => (s.seqToIdle, .done)
  | .running => (s.stopRequested.seqToAborted, .done)
  | .paused => (s.stopRequested.seqToAborted, .done)
  | .idle => (s, .done)
  | .complete => (s, .done)
  | .aborted => (s, .done)

def State.rxCancel (s : State) (h : CommandHead) : State := s.receiveCommand 2 h [] true State.ownCancel

/-- CANCEL (R125, R136). -/
def execCancel (head : CommandHead) (s : State) : Host.Outcome State Fault Refusal := live (fun t => t.rxCancel head) s

/-! ## JOG and HOME acceptance (R143, R144) -/

/-- R144: only LIMIT is latched, and the direction points away from an ACTIVE limit of the axis. Any ACTIVE limit of the axis
serves, also when the one that latched LIMIT has become INACTIVE since (log entry 29, DESIGN CHOICE). -/
def State.limitException (s : State) (x : Axis) (d : Dir) : Bool :=
  s.fault.held.all (fun k => decide (k = .limit)) && (s.axis x).limit (dirOpposite d)

/-- R143: the outcome of the first condition that fails, if one fails. -/
def State.judgeRun (s : State) (x : Axis) (d : Dir) : Option CmdOutcome :=
  if s.comm.mode ≠ .operational then some .refusedState
  else if !s.seq.state.atEase then some .refusedBusy
  else if s.mon.run ≠ .none then some .refusedBusy
  else if s.fault.lineAsserted then some .refusedStopLine
  else if s.fault.record.isSome ∧ ¬ s.limitException x d then some .refusedFault
  else if !s.mon.present then some .refusedNoEnable
  else if (s.axis x).limit d then some .refusedLimit
  else none

/-! ## JOG (R145) -/

/-- The soft limit in a direction. -/
def AxisParams.soft (p : AxisParams) : Dir → Int
  | .neg => p.softLo
  | .pos => p.softHi

/-- R145: P stands at or beyond the soft limit of a REFERENCED axis in the requested direction. -/
def State.atSoftLimit (s : State) (x : Axis) (d : Dir) : Bool :=
  (s.axis x).referenced &&
    match d with
    | .pos => decide ((s.params x).softHi ≤ (s.axis x).p)
    | .neg => decide ((s.axis x).p ≤ (s.params x).softLo)

/-- R145: the speed clamped into [Vcreep, Vjog], and to Vcreep for an UNREFERENCED slew. -/
def State.jogSpeed (s : State) (x : Axis) (v : Nat) : Nat :=
  if x = .slew ∧ ¬ s.slew.referenced then (s.params x).vcreep else max (s.params x).vcreep (min (s.params x).vjog v)

/-- An accepted JOG (R145). -/
def State.startJog (s : State) (x : Axis) (d : Dir) (v : Nat) : State :=
  let ref := (s.axis x).referenced
  let goal : Goal :=
    if ref then .position ((s.params x).soft d) (s.jogSpeed x v) else .velocity d (s.jogSpeed x v)
  ({ s with mon := { s.mon with run := .jog x d (if ref then .position else .velocity) } } : State).request x
    { goal := goal, asker := .enableMonitor }

def State.ownJog (s : State) (x : Axis) (d : Dir) (v : Nat) : State × CmdOutcome :=
  match s.judgeRun x d with
  | some o => (s, o)
  | none => if s.atSoftLimit x d then (s, .done) else (s.startJog x d v, .accepted)

def State.rxJog (s : State) (h : CommandHead) (axis dir : Byte) (speed : BitVec 24) : State :=
  s.receiveCommand 4 h (axis :: dir :: bytes24 speed) ((axisOfByte axis).isSome && (dirOfByte dir).isSome)
    (fun t =>
      match axisOfByte axis, dirOfByte dir with
      | some x, some d => t.ownJog x d speed.toNat
      | _, _ => (t, .refusedState))

/-- JOG (R143 to R145). -/
def execJog (head : CommandHead) (axis dir : Byte) (speed : BitVec 24) (s : State) :
    Host.Outcome State Fault Refusal :=
  live (fun t => t.rxJog head axis dir speed) s

/-! ## HOME (R12, R149) -/

/-- An accepted HOME (R149, R12). -/
def State.startHome (s : State) (x : Axis) : State :=
  let s1 := s.setReferenced x false
  let s2 := s1.setAxis x { s1.axis x with leg := some .outbound, metLimit := false }
  ({ s2 with mon := { s2.mon with run := .home x } } : State).request x
    { goal := .velocity (s.firstDir x) (s.params x).vhome, asker := .positionUnit }

def State.ownHome (s : State) (x : Axis) : State × CmdOutcome :=
  match s.judgeRun x (s.firstDir x) with
  | some o => (s, o)
  | none => (s.startHome x, .accepted)

def State.rxHome (s : State) (h : CommandHead) (axis : Byte) : State :=
  s.receiveCommand 3 h [axis] (axisOfByte axis).isSome
    (fun t =>
      match axisOfByte axis with
      | some x => t.ownHome x
      | none => (t, .refusedState))

/-- HOME (R143, R144, R149). -/
def execHome (head : CommandHead) (axis : Byte) (s : State) : Host.Outcome State Fault Refusal :=
  live (fun t => t.rxHome head axis) s

/-! ## JOG_END (R147) -/

/-- The active run is a JOG of the axis. -/
def Run.jogsOn (r : Run) (x : Axis) : Bool :=
  match r with
  | .jog y _ _ => decide (y = x)
  | .home _ => false
  | .none => false

def State.ownJogEnd (s : State) (x : Axis) : State × CmdOutcome :=
  if s.comm.mode = .operational ∧ s.mon.run.jogsOn x then
    (({ s with mon := { s.mon with run := .none } } : State).stopAxis x .controlled, .done)
  else (s, .done)

def State.rxJogEnd (s : State) (h : CommandHead) (axis : Byte) : State :=
  s.receiveCommand 5 h [axis] (axisOfByte axis).isSome
    (fun t =>
      match axisOfByte axis with
      | some x => t.ownJogEnd x
      | none => (t, .refusedState))

/-- JOG_END (R147). -/
def execJogEnd (head : CommandHead) (axis : Byte) (s : State) : Host.Outcome State Fault Refusal :=
  live (fun t => t.rxJogEnd head axis) s

/-! ## CLEAR_FAULT (R172) -/

def State.ownClearFault (s : State) : State × CmdOutcome :=
  if s.fault.record.isNone then (s, .done)
  else if s.allGone then (s.clearFaults, .done)
  else (s, .refusedActive)

def State.rxClearFault (s : State) (h : CommandHead) : State := s.receiveCommand 6 h [] true State.ownClearFault

/-- CLEAR_FAULT (R172). -/
def execClearFault (head : CommandHead) (s : State) : Host.Outcome State Fault Refusal :=
  live (fun t => t.rxClearFault head) s

end Sys2Proof.Machine
end

