-- ==== Sys2Proof/Machine/Reports.lean ====
section
/-! DEFINITION. The service requests that only read (R176, R187, R188, R115) and the undefined ones (R164), with the data of
their replies. -/

namespace Sys2Proof.Machine

/-! ## IDENTIFY (R188) -/

/-- The state a slot stands in (section 11.3): BAD when START found it failing its check. -/
inductive SlotState where
  | erased
  | partly
  | programmed
  | locked
  | bad
  deriving DecidableEq, Repr, Inhabited

def Slot.state (sl : Slot) : SlotState :=
  if sl.bad then .bad
  else
    match sl.held with
    | .erased => .erased
    | .partly => .partly
    | .programmed => .programmed
    | .locked => .locked

def SlotState.code : SlotState → Nat
  | .erased => 0
  | .partly => 1
  | .programmed => 2
  | .locked => 3
  | .bad => 4

/-- The two bytes of a slot: state and step count, layout; both 0 in their header part without a header. While an operation
works on the slot they are those from before it (log entry 31, DESIGN CHOICE). -/
def Slot.bytes (sl : Slot) : List Byte :=
  match sl.header with
  | some h => [toByte (sl.state.code + 8 * h.count), toByte h.layout]
  | none => [toByte sl.state.code, 0]

/-- Byte 5: jumper, latch, busy, record in force. -/
def State.flagByte (s : State) : Byte :=
  toByte ((if s.comm.jumper then 1 else 0) + (if s.store.latch then 2 else 0) + (if s.store.job.isSome then 4 else 0) +
    (if s.comm.record.isSome then 8 else 0))

/-- The 30 data bytes of IDENTIFY. -/
def State.identifyData (s : State) : List Byte :=
  bytes24 s.nv.unitTag ++ [toByte s.station, toByte s.comm.mode.code, s.flagByte] ++ s.nv.slots.flatMap Slot.bytes

def State.ownIdentify (s : State) (args : List Byte) : State × Answer :=
  (s, if args = [] then .reply .ok s.identifyData else .reply .refusedArgs [])

def State.rxIdentify (s : State) (r : ServiceReq) : State := s.receiveRequest 1 r (fun t => t.ownIdentify r.args)

/-- IDENTIFY (R188). -/
def execIdentify (req : ServiceReq) (s : State) : Host.Outcome State Fault Refusal := live (fun t => t.rxIdentify req) s

/-! ## READ_FAULT (R176) -/

/-- The axis as a byte: 0 slew, 1 rake. -/
def axisCode : Axis → Byte
  | .slew => 0
  | .rake => 1

/-- A set of kinds as a 2-byte field: bit n for kind n. -/
def kindSet (ks : List FaultKind) : BitVec 16 := ks.foldl (fun w k => w ||| (1#16 <<< k.code)) 0#16

/-- The held kinds whose condition is not gone (R173), as the record's kind and the set's are judged. -/
def State.persisting (s : State) : List FaultKind :=
  (match s.fault.record with
    | some r => if s.conditionGone r.kind (some r.fields) then [] else [r.kind]
    | none => []) ++
  s.fault.alsoSeen.filter (fun k => !s.conditionGone k none)

/-- Bytes 0 to 11: the fault record, or its absence. -/
def faultRecordBytes : Option FaultRecord → List Byte
  | none => [0, 255, 0, 0, 0, 255] ++ bytes24 0 ++ bytes24 0
  | some r =>
    [toByte r.kind.code, (match r.fields.axis with | some x => axisCode x | none => 255),
      toByte (r.fields.zone.getD 0), toByte (r.fields.peer.getD 0),
      (match r.place with | some p => toByte p.1 | none => 0),
      (match r.place with | some p => toByte p.2 | none => 255)] ++
    bytes24 (toField24 r.slewE) ++ bytes24 (toField24 r.rakeE)

/-- The 18 data bytes of READ_FAULT. -/
def State.faultData (s : State) : List Byte :=
  faultRecordBytes s.fault.record ++ bytes16 (kindSet s.fault.alsoSeen) ++ bytes16 (kindSet s.persisting) ++
    [toByte (match s.fault.notice with | some n => n.code | none => 0),
      toByte ((if s.fault.lineAsserted then 1 else 0) + (if s.fault.drivesStop then 2 else 0) +
        (if s.chainOpen then 4 else 0))]

def State.rxReadFault (s : State) (r : ServiceReq) : State :=
  s.receiveRequest 2 r (fun t => (t, .reply .ok t.faultData))

/-- READ_FAULT (R176). -/
def execReadFault (req : ServiceReq) (s : State) : Host.Outcome State Fault Refusal := live (fun t => t.rxReadFault req) s

/-! ## READ_PEERS (R115, R188) -/

def Freshness.code : Freshness → Nat
  | .unheard => 0
  | .fresh => 1
  | .stale => 2
  | .lost => 3

/-- The four list bytes of a record. -/
def PeerRecord.listBytes (r : PeerRecord) : List Byte :=
  [toByte r.station,
    toByte ((if r.zoneRole then 1 else 0) + (if r.scriptRole then 2 else 0) + 16 * r.freshness.code)] ++
  bytes16 (BitVec.ofNat 16 (r.age.getD 0))

/-- The kept status, in the status layout: bytes 0 to 19 with the enable-present bit 0, the zone entries, the fault byte. -/
def PeerStatus.bytes (st : PeerStatus) : List Byte :=
  [toByte (16 * st.mode) ||| (statusFlags st.slewRef st.rakeRef st.stopSeen false).setWidth 8,
    toByte (16 * st.seqState + st.phase), toByte st.layout, toByte st.step] ++
  bytes24 (toField24 st.slewE) ++ bytes24 (toField24 st.slewLo) ++ bytes24 (toField24 st.slewHi) ++
  bytes24 (toField24 st.rakeE) ++ bytes24 (toField24 st.rakeHi) ++
  [toByte st.zones.length] ++ st.zones.flatMap (fun z => [toByte z.zone, zoneStateByte z.adv z.mark z.waited]) ++
  [toByte (st.faultKind + (if st.alsoSeen then 128 else 0))]

/-- The record of one station. -/
def PeerRecord.recordBytes (r : PeerRecord) : List Byte :=
  r.listBytes ++ (match r.status with | some st => st.bytes | none => [])

/-- The answer for a selector byte. -/
def State.peersAnswer (s : State) (selector : Nat) : Answer :=
  if selector = 0 then .reply .ok (toByte s.peers.length :: s.peers.flatMap PeerRecord.listBytes)
  else if 31 < selector then .reply .refusedArgs []
  else
    match findPeer s.peers selector with
    | some r => .reply .ok r.recordBytes
    | none => .reply .refusedArgs []

def State.ownReadPeers (s : State) (args : List Byte) : State × Answer :=
  match args with
  | [b] => (s, s.peersAnswer b.toNat)
  | _ => (s, .reply .refusedArgs [])

def State.rxReadPeers (s : State) (r : ServiceReq) : State := s.receiveRequest 3 r (fun t => t.ownReadPeers r.args)

/-- READ_PEERS (R115, R188). -/
def execReadPeers (req : ServiceReq) (s : State) : Host.Outcome State Fault Refusal := live (fun t => t.rxReadPeers req) s

/-! ## READ_CAPTURE (R188) -/

def MarkUse.code : MarkUse → Byte
  | .preset => 1
  | .within => 2
  | .slip => 3
  | .unchecked => 4

/-- The 13 data bytes of READ_CAPTURE. Both counts are 0 without a capture, and the deviation is then a free value (log entry
32). -/
def AxisUnit.captureData (a : AxisUnit) : List Byte :=
  [(if a.referenced then 1 else 0 : Byte)] ++ bytes24 (toField24 a.e) ++
    (match a.capture with
      | some c =>
        [toByte c.marks, c.use.code] ++ bytes24 (toField24 c.captured) ++ bytes32 (BitVec.ofInt 32 c.deviation)
      | none => [0, 0] ++ bytes24 0 ++ bytes32 (Config.emptyDeviation a.e))

def State.ownReadCapture (s : State) (args : List Byte) : State × Answer :=
  match args with
  | [b] =>
    match axisOfByte b with
    | some x => (s, .reply .ok (s.axis x).captureData)
    | none => (s, .reply .refusedArgs [])
  | _ => (s, .reply .refusedArgs [])

def State.rxReadCapture (s : State) (r : ServiceReq) : State :=
  s.receiveRequest 4 r (fun t => t.ownReadCapture r.args)

/-- READ_CAPTURE (R188). -/
def execReadCapture (req : ServiceReq) (s : State) : Host.Outcome State Fault Refusal :=
  live (fun t => t.rxReadCapture req) s

/-! ## READ_SLOT (R187) -/

/-- The wrap count of R187. -/
def Slot.wrap (sl : Slot) : Nat :=
  match sl.state, sl.header with
  | .programmed, some h => h.count
  | .locked, some h => h.count
  | _, _ => 16

/-- A cell as READ_SLOT returns it: its step form, or FF. -/
def Slot.cellForm (sl : Slot) (i : Nat) : List Byte :=
  match sl.step? i with
  | some r => r.form
  | none => [0xFF]

/-- A slot argument is 1..12 (R183, R187). -/
def slotNumber (b : Byte) : Option Nat := if 1 ≤ b.toNat ∧ b.toNat ≤ Config.slotCount then some b.toNat else none

def State.ownReadSlot (s : State) (args : List Byte) : State × Answer :=
  match args with
  | [sb, ib] =>
    match (slotNumber sb).bind s.slot with
    | none => (s, .reply .refusedArgs [])
    | some sl =>
      if s.store.job.isSome then (s, .reply .busy [])
      else
        (s, .reply .ok (sl.cellForm (ib.toNat % sl.wrap) ++ sl.cellForm ((ib.toNat + 1) % sl.wrap)))
  | _ => (s, .reply .refusedArgs [])

def State.rxReadSlot (s : State) (r : ServiceReq) : State := s.receiveRequest 5 r (fun t => t.ownReadSlot r.args)

/-- READ_SLOT (R187). -/
def execReadSlot (req : ServiceReq) (s : State) : Host.Outcome State Fault Refusal := live (fun t => t.rxReadSlot req) s

/-! ## Requests of no defined kind (R164) -/

def State.rxUndefined (s : State) (kind : Byte) (r : ServiceReq) : State :=
  s.receiveRequest kind r (fun t => (t, .reply .refusedArgs []))

end Sys2Proof.Machine
end

