-- ==== Sys2Proof/Machine/Store.lean ====
section
/-! DEFINITION. The commissioning unit's and the layout store's requests that change state (R179, R180, R182 to R185), the
completions of the self-timed operations, and what a reset does to one (R178, R186). -/

namespace Sys2Proof.Machine

/-! ## Modes (R179, R180) -/

/-- Both axes OFF. -/
def State.bothOff (s : State) : Bool := s.slew.isOff && s.rake.isOff

/-- R179: what COMMISSION_ENTER asks for in OPERATIONAL. -/
def State.mayCommission (s : State) : Bool := s.seq.state.atEase && decide (s.mon.run = .none) && s.bothOff

/-- The entry into COMMISSION (R179, R101): working copy filled, the zone guard's claims dropped. -/
def State.enterCommission (s : State) : State :=
  ({ s with
      comm := { s.comm with
        mode := .commission
        working := some (match s.comm.record with | some r => r.bytes | none => List.replicate 152 0) }
      zones := s.zones.dropClaims } : State).announce s

def State.ownCommissionEnter (s : State) : State × Answer :=
  if !s.comm.jumper then (s, .reply .refusedState [])
  else
    match s.comm.mode with
    | .commission => (s, .reply .ok [])
    | .unconfigured => (s.enterCommission, .reply .ok [])
    | .operational => if s.mayCommission then (s.enterCommission, .reply .ok []) else (s, .reply .busy [])
    | .start => (s, .reply .refusedState [])
    | .isolated => (s, .reply .refusedState [])

def State.rxCommissionEnter (s : State) (r : ServiceReq) : State := s.receiveRequest 6 r State.ownCommissionEnter

/-- COMMISSION_ENTER (R179). -/
def execCommissionEnter (req : ServiceReq) (s : State) : Host.Outcome State Fault Refusal :=
  live (fun t => t.rxCommissionEnter req) s

/-- R180: restart-pending is set and the 250 ms begin. -/
def State.setRestart (s : State) : State :=
  { s with comm := { s.comm with restartPending := true, restartLeft := some Config.restartLimit } }

/-- The store is not busy and both axes are OFF (R179, R180). -/
def State.mayRestart (s : State) : Bool := s.store.job.isNone && s.bothOff

def State.ownCommissionExit (s : State) : State × Answer :=
  if s.comm.mode ≠ .commission then (s, .reply .refusedState [])
  else if s.mayRestart then (s.setRestart, .reply .ok [])
  else (s, .reply .busy [])

def State.rxCommissionExit (s : State) (r : ServiceReq) : State := s.receiveRequest 7 r State.ownCommissionExit

/-- COMMISSION_EXIT (R179). -/
def execCommissionExit (req : ServiceReq) (s : State) : Host.Outcome State Fault Refusal :=
  live (fun t => t.rxCommissionExit req) s

def State.ownRestart (s : State) : State × Answer :=
  if s.mayRestart then (s.setRestart, .reply .ok []) else (s, .reply .busy [])

def State.rxRestart (s : State) (r : ServiceReq) : State := s.receiveRequest 15 r State.ownRestart

/-- RESTART (R180). -/
def execRestart (req : ServiceReq) (s : State) : Host.Outcome State Fault Refusal := live (fun t => t.rxRestart req) s

/-! ## The order of judgement (R182, R183) -/

/-- The first two checks: COMMISSION with the jumper fitted, and the store not busy. -/
def State.writeGate (s : State) : Option SvcOutcome :=
  if s.comm.mode ≠ .commission ∨ ¬ s.comm.jumper then some .refusedState
  else if s.store.job.isSome then some .busy
  else none

/-- The first three checks: with the latch set. -/
def State.latchGate (s : State) : Option SvcOutcome :=
  match s.writeGate with
  | some o => some o
  | none => if s.store.latch then none else some .refusedWel

/-- A store request that passed its gate is judged on; one that did not gets the gate's outcome. -/
def gated (gate : Option SvcOutcome) (answer : Answer) : Answer :=
  match gate with
  | some o => .reply o []
  | none => answer

/-! ## WRITE_ENABLE (R183) -/

def State.ownWriteEnable (s : State) : State × Answer :=
  match s.writeGate with
  | some o => (s, .reply o [])
  | none => ({ s with store := { s.store with latch := true } }, .reply .ok [])

def State.rxWriteEnable (s : State) (r : ServiceReq) : State := s.receiveRequest 8 r State.ownWriteEnable

/-- WRITE_ENABLE (R183). -/
def execWriteEnable (req : ServiceReq) (s : State) : Host.Outcome State Fault Refusal :=
  live (fun t => t.rxWriteEnable req) s

/-! ## Slots -/

/-- A slot argument and the slot it names. -/
def State.slotArg (s : State) (b : Byte) : Option (Nat × Slot) :=
  (slotNumber b).bind (fun n => (s.slot n).map (fun sl => (n, sl)))

/-- One slot, 1 to 12, changed. -/
def State.modSlot (s : State) (n : Nat) (f : Slot → Slot) : State :=
  { s with nv := { s.nv with slots := s.nv.slots.modify (n - 1) f } }

/-- An operation completes (R183): busy and the latch clear, and the reply is handed in. -/
def State.finishJob (s : State) (place : Nat) (o : SvcOutcome) : State :=
  ({ s with store := { latch := false, job := none } } : State).handReply place o []

/-! ## ERASE_SLOT (R184) -/

def State.judgeErase (s : State) (args : List Byte) : Answer :=
  match args with
  | [b] =>
    match s.slotArg b with
    | none => .reply .refusedArgs []
    | some (n, sl) => if sl.state = .locked then .reply .refusedLocked [] else .job (.erase n) Config.eraseTime
  | _ => .reply .refusedArgs []

def State.rxEraseSlot (s : State) (r : ServiceReq) : State :=
  s.receiveRequest 9 r (fun t => (t, gated t.latchGate (t.judgeErase r.args)))

/-- ERASE_SLOT (R184). -/
def execEraseSlot (req : ServiceReq) (s : State) : Host.Outcome State Fault Refusal :=
  live (fun t => t.rxEraseSlot req) s

/-- An erase completes. -/
def State.eraseEnds (s : State) : State :=
  match s.store.job with
  | some { op := .erase n, place := p, .. } => (s.modSlot n (fun _ => Slot.blank)).finishJob p .ok
  | _ => s

/-- ERASE_COMPLETE (R184). -/
def execEraseComplete (s : State) : Host.Outcome State Fault Refusal := live State.eraseEnds s

/-! ## PROGRAM_STEPS (R184) -/

/-- A named cell has been programmed since the last erase. -/
def Slot.namesProgrammed (sl : Slot) (first n : Nat) : Bool :=
  (List.range n).any (fun i => !decide (sl.cells[first + i]? = some .blank))

def State.judgeProgram (s : State) (args : List Byte) : Answer :=
  match args with
  | b :: f :: forms =>
    match s.slotArg b, stepForms forms with
    | some (n, sl), some steps =>
      if Config.cellCount < f.toNat + steps.length then .reply .refusedArgs []
      else
        match sl.state with
        | .locked => .reply .refusedLocked []
        | .programmed => .reply .notErased []
        | .bad => .reply .notErased []
        | .erased =>
          if sl.namesProgrammed f.toNat steps.length then .reply .notErased []
          else .job (.program n f.toNat steps) Config.programTime
        | .partly =>
          if sl.namesProgrammed f.toNat steps.length then .reply .notErased []
          else .job (.program n f.toNat steps) Config.programTime
    | _, _ => .reply .refusedArgs []
  | _ => .reply .refusedArgs []

def State.rxProgramSteps (s : State) (r : ServiceReq) : State :=
  s.receiveRequest 10 r (fun t => (t, gated t.latchGate (t.judgeProgram r.args)))

/-- PROGRAM_STEPS (R184). -/
def execProgramSteps (req : ServiceReq) (s : State) : Host.Outcome State Fault Refusal :=
  live (fun t => t.rxProgramSteps req) s

/-- Cells written from an index on. -/
def putCells (first : Nat) (new : List Cell) (cells : List Cell) : List Cell :=
  cells.mapIdx (fun i c => if first ≤ i then (new[i - first]?).getD c else c)

/-- Programming completes. -/
def State.programEnds (s : State) : State :=
  match s.store.job with
  | some { op := .program n f steps, place := p, .. } =>
    (s.modSlot n (fun sl => { sl with held := .partly, cells := putCells f (steps.map .programmed) sl.cells })).finishJob
      p .ok
  | _ => s

/-- PROGRAM_COMPLETE (R184). -/
def execProgramComplete (s : State) : Host.Outcome State Fault Refusal := live State.programEnds s

/-! ## FINALIZE_SLOT (R185) -/

def State.judgeFinalize (s : State) (args : List Byte) : Answer :=
  match args with
  | [b, lay, cnt, c1, c0] =>
    match s.slotArg b with
    | none => .reply .refusedArgs []
    | some (n, sl) =>
      if lay.toNat < 1 ∨ 250 < lay.toNat ∨ cnt.toNat < 1 ∨ 16 < cnt.toNat then .reply .refusedArgs []
      else
        match sl.state with
        | .locked => .reply .refusedLocked []
        | .programmed => .reply .refusedState []
        | .bad => .reply .refusedState []
        | .erased => .job (.finalize n lay.toNat cnt.toNat (join16 c1 c0)) Config.finalizeTime
        | .partly => .job (.finalize n lay.toNat cnt.toNat (join16 c1 c0)) Config.finalizeTime
  | _ => .reply .refusedArgs []

def State.rxFinalizeSlot (s : State) (r : ServiceReq) : State :=
  s.receiveRequest 11 r (fun t => (t, gated t.latchGate (t.judgeFinalize r.args)))

/-- FINALIZE_SLOT (R185). -/
def execFinalizeSlot (req : ServiceReq) (s : State) : Host.Outcome State Fault Refusal :=
  live (fun t => t.rxFinalizeSlot req) s

/-- The step forms of steps 0 to count − 1, concatenated; absent when one of the cells holds no step. -/
def Slot.formsOf (sl : Slot) : Nat → Option (List Byte)
  | 0 => some []
  | n + 1 =>
    match sl.formsOf n, sl.step? n with
    | some fs, some r => some (fs ++ r.form)
    | _, _ => none

/-- Every counted cell is programmed and the CRC-16 of the steps equals the check (R185, R186). -/
def Slot.stepsCheck (sl : Slot) (count : Nat) (check : BitVec 16) : Bool :=
  match sl.formsOf count with
  | some fs => decide (crc16 fs = check)
  | none => false

/-- A slot in PROGRAMMED or LOCKED state holds the layout number. -/
def Slot.standsFor (sl : Slot) (layout : Nat) : Bool :=
  (decide (sl.state = .programmed) || decide (sl.state = .locked)) && decide (sl.header.map (·.layout) = some layout)

/-- Another slot than `n` stands for the layout. -/
def State.layoutTaken (s : State) (n layout : Nat) : Bool :=
  (List.range s.nv.slots.length).any (fun i =>
    !decide (i + 1 = n) && (s.nv.slots[i]?).any (fun sl => sl.standsFor layout))

/-- A finalize judges at its completion. -/
def State.finalizeEnds (s : State) : State :=
  match s.store.job with
  | some { op := .finalize n lay cnt chk, place := p, .. } =>
    if !(s.slot n).any (fun sl => sl.stepsCheck cnt chk) then s.finishJob p .checkMismatch
    else if s.layoutTaken n lay then s.finishJob p .refusedArgs
    else
      (s.modSlot n (fun sl =>
        { sl with held := .programmed, header := some { layout := lay, count := cnt, crc := chk } })).finishJob p .ok
  | _ => s

/-- FINALIZE_COMPLETE (R185). -/
def execFinalizeComplete (s : State) : Host.Outcome State Fault Refusal := live State.finalizeEnds s

/-! ## LOCK_SLOT (R185) -/

def State.judgeLock (s : State) (args : List Byte) : Answer :=
  match args with
  | [b] =>
    match s.slotArg b with
    | none => .reply .refusedArgs []
    | some (n, sl) =>
      match sl.state with
      | .programmed => .job (.lock n) Config.lockTime
      | .locked => .reply .refusedLocked []
      | .erased => .reply .refusedState []
      | .partly => .reply .refusedState []
      | .bad => .reply .refusedState []
  | _ => .reply .refusedArgs []

def State.rxLockSlot (s : State) (r : ServiceReq) : State :=
  s.receiveRequest 12 r (fun t => (t, gated t.latchGate (t.judgeLock r.args)))

/-- LOCK_SLOT (R185). -/
def execLockSlot (req : ServiceReq) (s : State) : Host.Outcome State Fault Refusal := live (fun t => t.rxLockSlot req) s

/-- A lock completes. -/
def State.lockEnds (s : State) : State :=
  match s.store.job with
  | some { op := .lock n, place := p, .. } => (s.modSlot n (fun sl => { sl with held := .locked })).finishJob p .ok
  | _ => s

/-- LOCK_COMPLETE (R185). -/
def execLockComplete (s : State) : Host.Outcome State Fault Refusal := live State.lockEnds s

/-! ## CONFIG_WRITE and CONFIG_COMMIT (R182) -/

/-- Bytes replaced from an offset on. -/
def putBytes (offset : Nat) (data bs : List Byte) : List Byte :=
  bs.mapIdx (fun i b => if offset ≤ i then (data[i - offset]?).getD b else b)

/-- The working copy: zeros when none is held. -/
def State.workingCopy (s : State) : List Byte := s.comm.working.getD (List.replicate 152 0)

def State.ownConfigWrite (s : State) (args : List Byte) : State × Answer :=
  match s.writeGate with
  | some o => (s, .reply o [])
  | none =>
    match args with
    | [] => (s, .reply .refusedArgs [])
    | off :: data =>
      if data.length < 1 ∨ 32 < data.length ∨ 152 < off.toNat + data.length then (s, .reply .refusedArgs [])
      else
        ({ s with comm := { s.comm with working := some (putBytes off.toNat data s.workingCopy) } }, .reply .ok [])

def State.rxConfigWrite (s : State) (r : ServiceReq) : State :=
  s.receiveRequest 13 r (fun t => t.ownConfigWrite r.args)

/-- CONFIG_WRITE (R182). -/
def execConfigWrite (req : ServiceReq) (s : State) : Host.Outcome State Fault Refusal :=
  live (fun t => t.rxConfigWrite req) s

/-- The working copy checked by R181 against the straps as they stand now, and written or refused (R182). -/
def State.judgeCommit (s : State) (args : List Byte) : Answer :=
  let own := s.comm.strapLevel.toNat
  if args ≠ [] then .reply .refusedArgs []
  else if recordOk own s.workingCopy then .job (.commit s.workingCopy) Config.commitTime
  else .reply .refusedArgs (bytes16 (BitVec.ofNat 16 (firstWrong own s.workingCopy)))

def State.rxConfigCommit (s : State) (r : ServiceReq) : State :=
  s.receiveRequest 14 r (fun t => (t, gated t.latchGate (t.judgeCommit r.args)))

/-- CONFIG_COMMIT (R182). -/
def execConfigCommit (req : ServiceReq) (s : State) : Host.Outcome State Fault Refusal :=
  live (fun t => t.rxConfigCommit req) s

/-- A commit completes: the 152 bytes and their CRC-16 stand in the store. -/
def State.commitEnds (s : State) : State :=
  match s.store.job with
  | some { op := .commit bs, place := p, .. } =>
    ({ s with nv := { s.nv with record := bs ++ bytes16 (crc16 bs), recordTorn := false } } : State).finishJob p .ok
  | _ => s

/-- COMMIT_COMPLETE (R182). -/
def execCommitComplete (s : State) : Host.Outcome State Fault Refusal := live State.commitEnds s

/-! ## UNDEFINED_SERVICE_REQ (R164) -/

/-- A request by its kind byte: the defined kinds go to their owners, the others are answered REFUSED_ARGS by the bus
interface. -/
def State.rxByKind (s : State) (kind : Byte) (r : ServiceReq) : State :=
  match kind.toNat with
  | 1 => s.rxIdentify r
  | 2 => s.rxReadFault r
  | 3 => s.rxReadPeers r
  | 4 => s.rxReadCapture r
  | 5 => s.rxReadSlot r
  | 6 => s.rxCommissionEnter r
  | 7 => s.rxCommissionExit r
  | 8 => s.rxWriteEnable r
  | 9 => s.rxEraseSlot r
  | 10 => s.rxProgramSteps r
  | 11 => s.rxFinalizeSlot r
  | 12 => s.rxLockSlot r
  | 13 => s.rxConfigWrite r
  | 14 => s.rxConfigCommit r
  | 15 => s.rxRestart r
  | _ => s.rxUndefined kind r

/-- UNDEFINED_SERVICE_REQ (R164). A frame whose kind byte is 1 to 15 is the request of that kind. -/
def execUndefinedServiceReq (kind : Byte) (req : ServiceReq) (s : State) : Host.Outcome State Fault Refusal :=
  live (fun t => t.rxByKind kind req) s

/-! ## A reset in a self-timed operation (R178, R186) -/

/-- What a cut-short ERASE_SLOT leaves (log entry 5): the slot fails its check; which cells and whether the header are still
read is free. -/
def Slot.tornErase (fresh : Nat) (sl : Slot) : Slot :=
  { sl with
    header := if Config.tornHeaderKept fresh then sl.header else none
    cells := sl.cells.mapIdx (fun i c => if Config.tornCellKept fresh i then c else .torn)
    torn := true }

/-- What a cut-short LOCK_SLOT leaves: it never reached LOCKED, and fails its check. -/
def Slot.tornLock (fresh : Nat) (sl : Slot) : Slot :=
  { sl with header := if Config.tornHeaderKept fresh then sl.header else none, torn := true }

/-- What a cut-short PROGRAM_STEPS leaves: the named cells fail their own checks. -/
def Slot.tornProgram (first n : Nat) (sl : Slot) : Slot :=
  { sl with held := .partly, cells := putCells first (List.replicate n .torn) sl.cells }

/-- The nonvolatile content after a cold reset during an operation. A FINALIZE_SLOT writes its header at its completion and
leaves the slot as it was. -/
def Nonvolatile.tear (nv : Nonvolatile) (fresh : Nat) : Option StoreJob → Nonvolatile
  | none => nv
  | some j =>
    match j.op with
    | .erase n => { nv with slots := nv.slots.modify (n - 1) (Slot.tornErase fresh) }
    | .program n f steps => { nv with slots := nv.slots.modify (n - 1) (Slot.tornProgram f steps.length) }
    | .finalize _ _ _ _ => nv
    | .lock n => { nv with slots := nv.slots.modify (n - 1) (Slot.tornLock fresh) }
    | .commit _ => { nv with recordTorn := true }

end Sys2Proof.Machine
end

