-- ==== Sys2Proof/Machine/Lifecycle.lean ====
section
/-! DEFINITION. Resets, the warm restart and the end of START (R18, R19, R54, R105, R177, R178, R180, R186). -/

namespace Sys2Proof.Machine

/-! ## Resets (R18, R54, R180) -/

/-- The input levels as they stand. -/
def State.pins (s : State) : Pins where
  slewA := s.slew.chA
  slewB := s.slew.chB
  rakeA := s.rake.chA
  rakeB := s.rake.chB
  slewNeg := s.slew.negLimit
  slewPos := s.slew.posLimit
  rakeNeg := s.rake.negLimit
  rakePos := s.rake.posLimit
  rakeSwitch := s.rake.refSwitch
  slewReady := s.slew.ready
  rakeReady := s.rake.ready
  chainOpen := s.chainOpen
  stopLine := s.fault.lineAsserted

/-- Every block at its cold-reset value, a self-timed operation torn (R180, R186). -/
def State.coldStart (s : State) (pins : Pins) : State :=
  State.ofCold (s.nv.tear s.fresh s.store.job) pins (s.fresh + 1) s.pending

/-- COLD_RESET (R180): the part leaves reset, whether or not it was held in it, and enters START with the levels read. -/
def execColdReset (pins : Pins) (s : State) : Host.Outcome State Fault Refusal := .next (s.coldStart pins)

/-- RESET_TAKEN (R54, R170): outputs off, STOP line drive released, operation torn, the part held (log entry 22). -/
def execResetTaken (s : State) : Host.Outcome State Fault Refusal :=
  .next { s.coldStart s.pins with inReset := true }

/-! ## The warm restart (R19, R38, R180) -/

/-- What a warm restart carries: the axes as R19 and R38 give, the record that was in force for the comparison of R19, the
nonvolatile content, the levels; all else takes its cold-reset value. -/
def State.restarted (s : State) : State :=
  { State.ofCold s.nv s.pins s.fresh s.pending with
    slew := s.slew.warm
    rake := s.rake.warm
    tickLeft := s.tickLeft
    comm := { Commissioning.cold with straps := s.comm.straps, prior := s.comm.record, warm := true } }

/-- The restart that restart-pending causes; ISOLATED is left by a cold reset alone (log entry 11). -/
def State.warmRestart (s : State) : State :=
  if s.comm.restartPending ∧ s.comm.mode ≠ .isolated then s.restarted else s

/-- WARM_RESTART (R180). -/
def execWarmRestart (s : State) : Host.Outcome State Fault Refusal := live State.warmRestart s

/-! ## The end of START (R178) -/

/-- R186: the check of a slot. -/
def Slot.passes (sl : Slot) : Bool :=
  !sl.torn &&
    match sl.held with
    | .programmed => sl.header.any (fun h => decide (1 ≤ h.count ∧ h.count ≤ 16) && sl.stepsCheck h.count h.crc)
    | .locked => sl.header.any (fun h => decide (1 ≤ h.count ∧ h.count ≤ 16) && sl.stepsCheck h.count h.crc)
    | .partly => sl.cells.all (fun c => !decide (c = .torn))
    | .erased => sl.header.isNone && sl.cells.all (fun c => decide (c = .blank))

/-- A slot after START's check: BAD when it failed. -/
def Slot.checked (sl : Slot) : Slot := { sl with bad := !sl.passes }

/-- R178: the stored record's CRC-16 is right. A record that a reset tore fails it. -/
def Nonvolatile.crcGood (nv : Nonvolatile) : Bool :=
  !nv.recordTorn && decide (nv.record.length = 154) &&
    decide (crc16 (nv.record.take 152) = join16 (nv.record.getD 152 0) (nv.record.getD 153 0))

/-- R178: the record that comes in force for a strap value, if one does. -/
def Nonvolatile.loaded (nv : Nonvolatile) (straps : Nat) : Option Record :=
  if straps ≠ 0 ∧ nv.crcGood ∧ recordOk straps nv.record then some (readRecord nv.record) else none

/-- The geometry fields of an axis (R19); the rake's home direction is fixed. -/
def AxisParams.geometry (p : AxisParams) : Int × Int × Int × Nat × Dir := (p.softLo, p.softHi, p.mark, p.slip, p.homeDir)

/-- R19: the axis keeps its reference state through a warm restart. -/
def keepsReference (prior new : Option Record) (x : Axis) : Bool :=
  match prior, new with
  | some a, some b => decide ((a.axis x).geometry = (b.axis x).geometry)
  | _, _ => false

/-- The checks of START done, the mode chosen, and the blocks at their start state (R78, R105, R160, R178, R186). -/
def State.started (s : State) (level : BitVec 5) : State :=
  let straps := level.toNat
  let rec_ := s.nv.loaded straps
  let slots := s.nv.slots.map Slot.checked
  { s with
    nv := { s.nv with slots := slots }
    comm := { s.comm with
      mode := if rec_.isSome then .operational else .unconfigured
      straps := straps, strapLevel := level, record := rec_, prior := none, warm := false }
    zones := { rows := match rec_ with | some r => r.zones.map GuardRow.fresh | none => [], waitElapsed := 0 }
    peers := match rec_ with | some r => zoneRecords r.zonePeers | none => []
    bus := { s.bus with nextDue := if straps ≠ 0 then some Config.statusPeriod else none, firstDue := false }
    fault := if slots.any (·.bad) then { s.fault with notice := some .slotBad } else s.fault }

/-- R19: after a warm restart an axis whose geometry check fails becomes UNREFERENCED. -/
def State.judgeReference (s : State) (prior : Option Record) (x : Axis) : State :=
  if keepsReference prior s.comm.record x then s else s.setReferenced x false

/-- After a warm restart (R19, R38): reference states judged, P set to E, the tick schedule begun again. -/
def State.resumeAxes (s : State) (prior : Option Record) : State :=
  let s1 := (s.judgeReference prior .slew).judgeReference prior .rake
  { s1 with slew := s1.slew.rest, rake := s1.rake.rest, tickLeft := Config.tickPeriod }

/-- A chain found open is taken as an opening (R51). -/
def State.readChain (s : State) : State := if s.chainOpen then s.chainOpened else s

/-- A STOP line found ASSERTED at an end of START into OPERATIONAL is taken as its becoming ASSERTED (R175). -/
def State.readLine (s : State) : State :=
  if s.comm.mode = .operational ∧ s.fault.lineAsserted then s.lineReactions else s

/-- START ends (R178). -/
def State.startEnds (s : State) (straps : BitVec 5) : State :=
  if s.comm.mode = .start then
    let s1 := s.started straps
    let s2 := if s.comm.warm then s1.resumeAxes s.comm.prior else s1
    s2.readChain.readLine
  else s

/-- START_END (R178). -/
def execStartEnd (straps : BitVec 5) (s : State) : Host.Outcome State Fault Refusal :=
  live (fun t => t.startEnds straps) s

end Sys2Proof.Machine
end

