-- ==== Sys2Proof/Machine/Position.lean ====
section
/-! DEFINITION. The position units (chapter 1): counting (R1 to R3), reference marks (R4 to R7, R13), the rake switch (R5,
R15) and the end limits (R9, R10, R14, R16). -/

namespace Sys2Proof.Machine

/-! ## Counting (R1 to R3) -/

/-- What a change of the pair (A, B) is. -/
inductive Transition where
  | same
  | count (d : Dir)
  | quadratureError
  deriving DecidableEq, Repr, Inhabited

/-- The pair that follows in positive travel (section 1.2). -/
def nextPositive (a b : Bool) : Bool × Bool :=
  match a, b with
  | false, false => (true, false)
  | true, false => (true, true)
  | true, true => (false, true)
  | false, true => (false, false)

/-- R1, R2: new levels decoded against the decoder pair. -/
def decodePair (a b a' b' : Bool) : Transition :=
  if a' = a ∧ b' = b then .same
  else if a' ≠ a ∧ b' ≠ b then .quadratureError
  else if (a', b') = nextPositive a b then .count .pos
  else .count .neg

/-- ENCODER_SLIP is reported with its axis, which becomes UNREFERENCED (R2, R3, R7). -/
def State.encoderSlip (s : State) (x : Axis) : State :=
  (s.setReferenced x false).report .encoderSlip (FaultFields.ofAxis x)

/-- A level change on A or B (R1, R2, R3). -/
def State.transition (s : State) (x : Axis) (a b : Bool) : State :=
  let u := s.axis x
  match decodePair u.chA u.chB a b with
  | .same => s
  | .quadratureError => (s.setAxis x { u with chA := a, chB := b }).encoderSlip x
  | .count d =>
    let e := u.e + dirSign d
    if e < posMin ∨ posMax < e then (s.setAxis x { u with chA := a, chB := b, lastDir := some d }).encoderSlip x
    else s.setAxis x { u with e := e, chA := a, chB := b, lastDir := some d }

/-- ENCODER_TRANSITION (R1, R2, R3). -/
def execEncoderTransition (axis : Axis) (a b : Bool) (s : State) : Host.Outcome State Fault Refusal :=
  live (fun t => t.transition axis a b) s

/-! ## Reference marks (R6, R7, R13) -/

/-- The mark position: the record's, or a free value while none is in force (log entry 4). -/
def State.markPosition (s : State) (x : Axis) : Int :=
  match s.comm.record with
  | some r => (r.axis x).mark
  | none => satPos (Config.markWithoutRecord s.fresh)

/-- The slip tolerance, 1..255: the record's, or a free value while none is in force (log entry 4). -/
def State.slipTolerance (s : State) (x : Axis) : Nat :=
  match s.comm.record with
  | some r => (r.axis x).slip
  | none => 1 + Config.slipWithoutRecord s.fresh % 255

/-- A leg before the preset (section 1.5). -/
def Leg.beforePreset : Leg → Bool
  | .outbound => true
  | .reversing => true
  | .returning => true
  | .turning => true
  | .descent => true
  | .stopping => false

/-- The use of a mark (R6). -/
def AxisUnit.markUse (a : AxisUnit) (deviation : Int) (tolerance : Nat) : MarkUse :=
  if a.leg.any Leg.beforePreset then .preset
  else if a.referenced then (if tolerance < deviation.natAbs then .slip else .within)
  else .unchecked

/-- The capture record after a mark (R6); an empty record counts from 0. -/
def AxisUnit.captureOf (a : AxisUnit) (mark : Int) (tolerance : Nat) : Capture where
  captured := a.e
  deviation := a.e - mark
  marks := ((match a.capture with | some c => c.marks | none => 0) + 1) % 256
  use := a.markUse (a.e - mark) tolerance

/-- The preset (R13): E takes the mark position, P moves by the same difference and saturates, the leg becomes STOPPING. -/
def AxisUnit.preset (a : AxisUnit) (mark : Int) : AxisUnit :=
  { a with e := mark, p := satPos (a.p + (mark - a.e)), leg := some .stopping }

/-- A reference mark of an axis (R6, R7, R13). -/
def State.takeMark (s : State) (x : Axis) : State :=
  let mark := s.markPosition x
  let c := (s.axis x).captureOf mark (s.slipTolerance x)
  let s1 : State :=
    { s.setAxis x { s.axis x with capture := some c } with
      fresh := if s.comm.record.isNone then s.fresh + 1 else s.fresh }
  match c.use with
  | .preset => ((s1.setAxis x ((s1.axis x).preset mark)).setReferenced x true).stopAxis x .controlled
  | .slip => s1.encoderSlip x
  | .within => s1
  | .unchecked => s1

/-- SLEW_INDEX_MARK (R4, R6). -/
def execSlewIndexMark (s : State) : Host.Outcome State Fault Refusal := live (fun t => t.takeMark .slew) s

/-! ## The rake reference switch (R5, R15) -/

/-- The switch closes: a mark when the last direction is DOWN (R5). -/
def State.switchCloses (s : State) : State :=
  if s.rake.refSwitch then s
  else
    let s1 : State := { s with rake := { s.rake with refSwitch := true } }
    if s.rake.lastDir = some .neg then s1.takeMark .rake else s1

/-- RAKE_SWITCH_CLOSE (R5, R6). -/
def execRakeSwitchClose (s : State) : Host.Outcome State Fault Refusal := live State.switchCloses s

/-- The switch opens: in RETURN with the last direction UP the search turns (R15). -/
def State.switchOpens (s : State) : State :=
  if s.rake.refSwitch then
    let s1 : State := { s with rake := { s.rake with refSwitch := false } }
    if s.rake.lastDir = some .pos ∧ s.rake.leg = some .returning then
      ({ s1 with rake := { s1.rake with leg := some .turning } } : State).request .rake
        { goal := .brake .normal, asker := .positionUnit }
    else s1
  else s

/-- RAKE_SWITCH_OPEN (R5, R15). -/
def execRakeSwitchOpen (s : State) : Host.Outcome State Fault Refusal := live State.switchOpens s

/-! ## End limits (R9, R10, R14, R16) -/

/-- The V that the last profile tick left is non-zero and points toward the limit (R10, R20), whatever has become of the axis
since that tick: one that has entered FAULTED on the way (R50) still meets its limit. -/
def AxisUnit.movesToward (a : AxisUnit) (d : Dir) : Bool := decide (dirOf a.tickV = some d)

/-- The second limit of a search (R16): the search ends, HOME_FAIL and then LIMIT are reported. -/
def State.secondLimit (s : State) (x : Axis) : State :=
  ((s.setAxis x { s.axis x with leg := none }).report .homeFail (FaultFields.ofAxis x)).report .limit
    (FaultFields.ofAxis x)

/-- A limit toward the motion becomes ACTIVE (R10, R14, R16). -/
def State.limitMet (s : State) (x : Axis) : State :=
  match (s.axis x).leg with
  | some .outbound =>
    (s.setAxis x { s.axis x with leg := some .reversing, metLimit := true }).request x
      { goal := .brake .quick, asker := .positionUnit }
  | some .stopping => s.report .limit (FaultFields.ofAxis x)
  | none => s.report .limit (FaultFields.ofAxis x)
  | some .reversing => s.secondLimit x
  | some .returning => s.secondLimit x
  | some .turning => s.secondLimit x
  | some .descent => s.secondLimit x

/-- An end limit becomes ACTIVE (R9, R10). -/
def State.limitActive (s : State) (x : Axis) (d : Dir) : State :=
  if (s.axis x).limit d then s
  else
    let s1 := s.setAxis x ((s.axis x).setLimit d true)
    if (s.axis x).movesToward d then s1.limitMet x else s1

/-- END_LIMIT_ACTIVE (R10, R14, R16). -/
def execEndLimitActive (axis : Axis) (dir : Dir) (s : State) : Host.Outcome State Fault Refusal :=
  live (fun t => t.limitActive axis dir) s

/-- END_LIMIT_INACTIVE (R9): only the lock of R11 goes with it. -/
def execEndLimitInactive (axis : Axis) (dir : Dir) (s : State) : Host.Outcome State Fault Refusal :=
  live (fun t => t.setAxis axis ((t.axis axis).setLimit dir false)) s

end Sys2Proof.Machine
end

