-- ==== Sys2Proof/Machine/Receiver.lean ====
section
/-! DEFINITION. The receiver, bit by bit (R153 to R155): the frames and the discards that a stretch of the line gives, what
becomes of each, and the transmitter's comparison of each bit it drives with the level read (R158), by which it goes on, completes
or withdraws. -/

namespace Sys2Proof.Machine

/-! ## The automaton -/

/-- What one line event gives beside the receiver's next state. -/
inductive RxReport where
  | none
  | discard
  | frame (chars : List Byte)
  deriving DecidableEq, Repr, Inhabited

/-- HUNTING with the count at zero and nothing kept of the frame: the receiver after a discard (R154, R155). -/
def Receiver.dropped (rx : Receiver) : Receiver := { rx with state := .hunting, recessive := 0, bits := [], own := false }

/-- A start edge (R153, R155): the edge is recorded and START_CHECK entered. -/
def Receiver.startEdge (rx : Receiver) (time : Nat) : Receiver :=
  { rx with state := .startCheck, lastEdge := time, bits := [] }

/-- A start edge at an idle line (R153): a new frame, which is another's. -/
def Receiver.firstEdge (rx : Receiver) (time : Nat) : Receiver := { rx.startEdge time with buffer := [], own := false }

/-- What the end of a frame in BETWEEN gives (R155): the frame, but for this station's own, which is not examined (R157). -/
def Receiver.ended (rx : Receiver) : RxReport := if rx.own then .none else .frame rx.buffer

/-- A dominant edge (R153, R155). In START_CHECK and DATA the receiver samples and takes no edge. In BETWEEN, 20 bit times after
the last start edge the line has fallen idle, so the frame has ended and the edge begins a new one. `sending` says that this
station drives the line; a frame that goes on after its own has been sent to its end is no longer its own (log entry 21). -/
def Receiver.edge (rx : Receiver) (sending : Bool) (time : Nat) : Receiver × RxReport :=
  match rx.state with
  | .hunting => if rx.recessive < 11 then ({ rx with recessive := 0 }, .none) else (rx.firstEdge time, .none)
  | .between =>
    if time - rx.lastEdge ≤ 15 then ({ rx.startEdge time with own := rx.own && sending }, .none)
    else if time - rx.lastEdge < 20 then (rx.dropped, if rx.own then .none else .discard)
    else (rx.firstEdge time, rx.ended)
  | .startCheck => (rx, .none)
  | .data => (rx, .none)

/-- A sample (R153, R154, R155). -/
def Receiver.sample (rx : Receiver) (level : Bool) : Receiver × RxReport :=
  match rx.state with
  | .startCheck =>
    if !level then ({ rx with state := .data, bits := [] }, .none)
    else if rx.buffer = [] then ({ rx with state := .hunting, recessive := 11, own := false }, .none)
    else (rx.dropped, .discard)
  | .data =>
    if rx.bits.length < 8 then ({ rx with bits := rx.bits ++ [level] }, .none)
    else if !level then (rx.dropped, .discard)
    else if Config.maxChars ≤ rx.buffer.length then (rx.dropped, .discard)
    else
      ({ rx with
          state := .between, recessive := 1, buffer := rx.buffer ++ [byteOfBits rx.bits], bits := [] }, .none)
  | .hunting => (rx, .none)
  | .between => (rx, .none)

/-- Recessive time passes (R153, R155): at line idle a frame in BETWEEN ends; this station's own is not examined (R157). Such time
brings no sample, so a receiver in START_CHECK or DATA stays there: the samples of R154 are events of the line of their own, also
where the time is the millisecond of an empty queue (log entry 3, DESIGN CHOICE). -/
def Receiver.rest (rx : Receiver) (n : Nat) : Receiver × RxReport :=
  match rx.state with
  | .hunting => ({ rx with recessive := min 11 (rx.recessive + n) }, .none)
  | .between =>
    if 11 ≤ rx.recessive + n then ({ rx with state := .hunting, recessive := 11, own := false }, rx.ended)
    else ({ rx with recessive := rx.recessive + n }, .none)
  | .startCheck => (rx, .none)
  | .data => (rx, .none)

/-- One event of the line, met while this station drives it or not. -/
def Receiver.feed (rx : Receiver) (sending : Bool) : LineEvent → Receiver × RxReport
  | .edge t => rx.edge sending t
  | .sample l => rx.sample l
  | .recessive n => rx.rest n

/-! ## Reports taken -/

/-- A frame that passed R156, taken as its row takes it. -/
def State.runFrame (s : State) : Instr → State
  | .statusFrame snd p => s.rxStatus snd p
  | .stopFrame snd => s.rxStop snd
  | .enableFrame snd t => s.rxEnable snd t
  | .convert h l d => s.rxConvert h l d
  | .cancel h => s.rxCancel h
  | .home h a => s.rxHome h a
  | .jog h a d v => s.rxJog h a d v
  | .jogEnd h a => s.rxJogEnd h a
  | .clearFault h => s.rxClearFault h
  | .serviceReplyFrame snd q k t o d => s.rxReply snd q k t o d
  | .identify r => s.rxIdentify r
  | .readFault r => s.rxReadFault r
  | .readPeers r => s.rxReadPeers r
  | .readCapture r => s.rxReadCapture r
  | .readSlot r => s.rxReadSlot r
  | .commissionEnter r => s.rxCommissionEnter r
  | .commissionExit r => s.rxCommissionExit r
  | .restart r => s.rxRestart r
  | .writeEnable r => s.rxWriteEnable r
  | .eraseSlot r => s.rxEraseSlot r
  | .programSteps r => s.rxProgramSteps r
  | .finalizeSlot r => s.rxFinalizeSlot r
  | .lockSlot r => s.rxLockSlot r
  | .configWrite r => s.rxConfigWrite r
  | .configCommit r => s.rxConfigCommit r
  | .undefinedServiceReq k r => s.rxByKind k r
  | _ => s

/-- A frame that ended passes its checks and is taken, or is discarded (R156). -/
def State.judgeFrame (s : State) (chars : List Byte) : State :=
  match decodeFrame s.comm.jumper s.comm.strapLevel chars with
  | some i => s.runFrame i
  | none => s.discard

/-- A frame that the receiver has ended (R155, R156). The receiver stays where the line has brought it: in HUNTING at line idle,
or in START_CHECK of the frame that the next start edge has begun. -/
def State.frameEnd (s : State) (chars : List Byte) : State :=
  let t := s.judgeFrame chars
  { t with bus := { t.bus with rx := s.bus.rx } }

def State.takeReport (s : State) : RxReport → State
  | .none => s
  | .discard => s.discard
  | .frame cs => s.frameEnd cs

/-! ## The transmitter's own bits (R158) -/

/-- The ten bits of a character (section 9.1). -/
def characterBits (b : Byte) : List Bool := false :: (bitsOf b ++ [true])

/-- The bits that a station drives for a frame. -/
def frameBits (frame : List Byte) : List Bool := frame.flatMap characterBits

/-- Whether the transmitter is SENDING. -/
def Transmitter.drives : Transmitter → Bool
  | .quiet => false
  | .sending _ _ _ => true

/-- The queue after a withdrawal (R158, R159): a status is pending again; a reply has stayed in its place. So it is also for a
status that was in transmission at the entry to ISOLATED, where R159 sets the flag that R166 cleared and no further frame starts:
the model sets the flag and starts nothing (log entry 9, DEDUCED). -/
def State.requeue (s : State) : TxSource → State
  | .status => s.requestStatus
  | .reply _ => s

/-- The level at a sample point compared with the bit driven there (R158): sending goes on where they agree; otherwise the
station withdraws, its frame waits again, and the frame being received is not its own. -/
def State.compareBit (s : State) (level : Bool) : State :=
  match s.bus.tx with
  | .quiet => s
  | .sending src f n =>
    if (frameBits f)[n]? = some level then { s with bus := { s.bus with tx := .sending src f (n + 1) } }
    else ({ s with bus := { s.bus with tx := .quiet, rx := { s.bus.rx with own := false } } } : State).requeue src

/-- What an event of the line shows the transmitter: a sample, or, in BETWEEN, a line that stays recessive where the start bit of
the next character is driven. -/
def State.readBack (s : State) : LineEvent → State
  | .edge _ => s
  | .sample l => s.compareBit l
  | .recessive n => if n ≠ 0 ∧ s.bus.rx.state = .between then s.compareBit true else s

/-- A frame is complete when the stop bit of its last character has been read back (R158). -/
def State.checkSent (s : State) : State :=
  match s.bus.tx with
  | .quiet => s
  | .sending src f n => if (frameBits f).length ≤ n then s.frameSent src else s

/-- One event of the line: the transmitter's comparison, the receiver's step, and what becomes of both. -/
def State.lineEvent (s : State) (e : LineEvent) : State :=
  let s1 := s.readBack e
  let r := s1.bus.rx.feed s1.bus.tx.drives e
  (({ s1 with bus := { s1.bus with rx := r.1 } } : State).takeReport r.2).checkSent

/-- A stretch of the line (R153 to R156, R158). -/
def State.lineEvents (s : State) (es : List LineEvent) : State := es.foldl State.lineEvent s

/-- FRAME_DISCARD (R153 to R156, R158). The operand is the stretch of the line on which the frame came. -/
def execFrameDiscard (line : List LineEvent) (s : State) : Host.Outcome State Fault Refusal :=
  live (fun t => t.lineEvents line) s

/-! ## WITHDRAW (R158) -/

/-- The samples, with the start edges, of a station that drives a character; `i` is the character's number. The start edge is
met also where the start bit is then read recessive, so that a withdrawal there is the framing error of R155 (log entry 21, DESIGN
CHOICE; a line that shows no edge at all is the stretch of the line that says so). -/
def characterEvents (i : Nat) (b : Byte) : List LineEvent :=
  (if i = 0 then [] else [.edge (10 * i)]) ++ (characterBits b).map .sample

/-- A frame's first character comes after the start edge of the transmission. -/
def frameEvents (frame : List Byte) : List LineEvent := (frame.mapIdx characterEvents).flatten

/-- The first `n` bits of a frame read back as driven, and bit `n` read at the other level; absent when there is no bit
`n`. -/
def withdrawEvents : Nat → List LineEvent → Option (List LineEvent)
  | _, [] => none
  | n, .edge t :: es => (withdrawEvents n es).map (.edge t :: ·)
  | n, .recessive k :: es => (withdrawEvents n es).map (.recessive k :: ·)
  | 0, .sample l :: _ => some [.sample !l]
  | n + 1, .sample l :: es => (withdrawEvents n es).map (.sample l :: ·)

/-- The station withdraws at a bit (R158): the line shows the bits it drove up to that one, and there the other level. -/
def State.withdrawAt (s : State) (bit : Nat) : State :=
  match s.bus.tx with
  | .quiet => s
  | .sending src f _ =>
    match withdrawEvents bit (frameEvents f) with
    | none => s
    | some es =>
      ({ s with bus := { s.bus with tx := .sending src f 0, rx := s.bus.rx.startOwn } } : State).lineEvents es

/-- WITHDRAW (R158, R159). -/
def execWithdraw (bit : Nat) (s : State) : Host.Outcome State Fault Refusal := live (fun t => t.withdrawAt bit) s

end Sys2Proof.Machine
end

