-- ==== Sys2Proof/Machine/Dispatch.lean ====
section
/-! DEFINITION. Which meaning each command has. -/

namespace Sys2Proof.Machine

def exec (i : Instr) (s : State) : Host.Outcome State Fault Refusal :=
  match i with
  | .coldReset pins => Sys2Proof.Machine.execColdReset pins s
  | .startEnd straps => Sys2Proof.Machine.execStartEnd straps s
  | .warmRestart => Sys2Proof.Machine.execWarmRestart s
  | .encoderTransition axis a b => Sys2Proof.Machine.execEncoderTransition axis a b s
  | .slewIndexMark => Sys2Proof.Machine.execSlewIndexMark s
  | .rakeSwitchClose => Sys2Proof.Machine.execRakeSwitchClose s
  | .rakeSwitchOpen => Sys2Proof.Machine.execRakeSwitchOpen s
  | .endLimitActive axis dir => Sys2Proof.Machine.execEndLimitActive axis dir s
  | .endLimitInactive axis dir => Sys2Proof.Machine.execEndLimitInactive axis dir s
  | .profileTick => Sys2Proof.Machine.execProfileTick s
  | .driveReadyActive axis => Sys2Proof.Machine.execDriveReadyActive axis s
  | .readyLimitExpiry axis => Sys2Proof.Machine.execReadyLimitExpiry axis s
  | .brakeReleaseExpiry axis => Sys2Proof.Machine.execBrakeReleaseExpiry axis s
  | .holdExpiry axis => Sys2Proof.Machine.execHoldExpiry axis s
  | .brakeSetExpiry axis => Sys2Proof.Machine.execBrakeSetExpiry axis s
  | .driveLoss axis => Sys2Proof.Machine.execDriveLoss axis s
  | .localStopChainOpen => Sys2Proof.Machine.execLocalStopChainOpen s
  | .localStopChainClose => Sys2Proof.Machine.execLocalStopChainClose s
  | .claimWindowExpiry => Sys2Proof.Machine.execClaimWindowExpiry s
  | .zoneTimeout => Sys2Proof.Machine.execZoneTimeout s
  | .statusFrame sender payload => Sys2Proof.Machine.execStatusFrame sender payload s
  | .peerStale station => Sys2Proof.Machine.execPeerStale station s
  | .peerLost station => Sys2Proof.Machine.execPeerLost station s
  | .stopFrame sender => Sys2Proof.Machine.execStopFrame sender s
  | .enableFrame sender targets => Sys2Proof.Machine.execEnableFrame sender targets s
  | .enableExpiry => Sys2Proof.Machine.execEnableExpiry s
  | .convert head layout delay => Sys2Proof.Machine.execConvert head layout delay s
  | .cancel head => Sys2Proof.Machine.execCancel head s
  | .home head axis => Sys2Proof.Machine.execHome head axis s
  | .jog head axis dir speed => Sys2Proof.Machine.execJog head axis dir speed s
  | .jogEnd head axis => Sys2Proof.Machine.execJogEnd head axis s
  | .clearFault head => Sys2Proof.Machine.execClearFault head s
  | .serviceReplyFrame sender requester kind tag outcome data => Sys2Proof.Machine.execServiceReplyFrame sender requester kind tag outcome data s
  | .frameDiscard line => Sys2Proof.Machine.execFrameDiscard line s
  | .identify req => Sys2Proof.Machine.execIdentify req s
  | .readFault req => Sys2Proof.Machine.execReadFault req s
  | .readPeers req => Sys2Proof.Machine.execReadPeers req s
  | .readCapture req => Sys2Proof.Machine.execReadCapture req s
  | .readSlot req => Sys2Proof.Machine.execReadSlot req s
  | .commissionEnter req => Sys2Proof.Machine.execCommissionEnter req s
  | .commissionExit req => Sys2Proof.Machine.execCommissionExit req s
  | .restart req => Sys2Proof.Machine.execRestart req s
  | .writeEnable req => Sys2Proof.Machine.execWriteEnable req s
  | .eraseSlot req => Sys2Proof.Machine.execEraseSlot req s
  | .eraseComplete => Sys2Proof.Machine.execEraseComplete s
  | .programSteps req => Sys2Proof.Machine.execProgramSteps req s
  | .programComplete => Sys2Proof.Machine.execProgramComplete s
  | .finalizeSlot req => Sys2Proof.Machine.execFinalizeSlot req s
  | .finalizeComplete => Sys2Proof.Machine.execFinalizeComplete s
  | .lockSlot req => Sys2Proof.Machine.execLockSlot req s
  | .lockComplete => Sys2Proof.Machine.execLockComplete s
  | .configWrite req => Sys2Proof.Machine.execConfigWrite req s
  | .configCommit req => Sys2Proof.Machine.execConfigCommit req s
  | .commitComplete => Sys2Proof.Machine.execCommitComplete s
  | .undefinedServiceReq kind req => Sys2Proof.Machine.execUndefinedServiceReq kind req s
  | .transmitStart => Sys2Proof.Machine.execTransmitStart s
  | .withdraw bit => Sys2Proof.Machine.execWithdraw bit s
  | .frameComplete => Sys2Proof.Machine.execFrameComplete s
  | .statusDue => Sys2Proof.Machine.execStatusDue s
  | .busSilent => Sys2Proof.Machine.execBusSilent s
  | .holdOffExpiry => Sys2Proof.Machine.execHoldOffExpiry s
  | .stepTimeout => Sys2Proof.Machine.execStepTimeout s
  | .dwellEnd => Sys2Proof.Machine.execDwellEnd s
  | .stopLineAsserted => Sys2Proof.Machine.execStopLineAsserted s
  | .stopLineReleased => Sys2Proof.Machine.execStopLineReleased s
  | .pwmPeriodStart axis => Sys2Proof.Machine.execPwmPeriodStart axis s
  | .resetTaken => Sys2Proof.Machine.execResetTaken s

end Sys2Proof.Machine
end

