-- ==== Sys2Proof/Machine/Time.lean ====
section
/-! DEFINITION. The passing of time (log entry 3): what one millisecond in which no command comes does to the timers and to a
line that nobody drives. No timer acts on its own here; what happens at its end is the row that its expiry is. -/

namespace Sys2Proof.Machine

/-- Time left runs down and stands at 0 until its expiry is taken. -/
def tickDown (t : Option Nat) : Option Nat := t.map (· - 1)

def AxisUnit.passMs (a : AxisUnit) : AxisUnit := { a with timer := tickDown a.timer }

def GuardRow.passMs (r : GuardRow) : GuardRow := { r with window := tickDown r.window }

/-- R111: the age grows to the bound at which the record's freshness changes, and to 65,535 ms in LOST. -/
def PeerRecord.passMs (r : PeerRecord) : PeerRecord :=
  let bound :=
    match r.freshness with
    | .unheard => 0
    | .fresh => Config.staleAge
    | .stale => Config.lostAge
    | .lost => Config.ageCap
  { r with age := r.age.map (fun a => if a < bound then a + 1 else a) }

/-- R161: the silence timer's elapsed time, at most 250 ms. -/
def Silence.passMs : Silence → Silence
  | .stopped => .stopped
  | .running n => .running (min Config.silenceLimit (n + 1))
  | .reported => .reported

/-- The zone wait limit in ms. -/
def State.zoneWaitMs (s : State) : Nat := 1000 * (match s.comm.record with | some r => r.zoneWait | none => 0)

/-- R123, R130, R132: the sequencer's three timers. -/
def State.passSeq (s : State) : Sequencer :=
  { s.seq with
    holdOff := tickDown s.seq.holdOff
    stepElapsed := if s.stepTimerRuns then min s.stepLimitMs (s.seq.stepElapsed + 1) else s.seq.stepElapsed
    dwellElapsed :=
      if s.seq.state = .running ∧ s.seq.phase = .dwell then min s.currentStep.dwellMs (s.seq.dwellElapsed + 1)
      else s.seq.dwellElapsed }

/-- One millisecond in bit times of 1 µs (section 9.1). -/
abbrev msBits : Nat := 1000

/-- While this station is not SENDING and no command comes, the line rests recessive (R153, R155). A receiver in START_CHECK or DATA
gets no sample of that rest and stays there (log entry 3, DESIGN CHOICE). -/
def State.restLine (s : State) : State := if s.bus.tx.drives then s else s.lineEvent (.recessive msBits)

/-- The timers of one millisecond. -/
def State.passTimers (s : State) : State :=
  { s with
    comm := { s.comm with restartLeft := tickDown s.comm.restartLeft }
    store := { s.store with job := s.store.job.map (fun j => { j with left := j.left - 1 }) }
    slew := s.slew.passMs
    rake := s.rake.passMs
    tickLeft := s.tickLeft - 1
    zones :=
      { rows := s.zones.rows.map GuardRow.passMs
        waitElapsed :=
          if s.zoneWaitRuns then min s.zoneWaitMs (s.zones.waitElapsed + 1) else s.zones.waitElapsed }
    peers := s.peers.map PeerRecord.passMs
    seq := s.passSeq
    mon := { s.mon with timer := tickDown s.mon.timer }
    bus := { s.bus with nextDue := tickDown s.bus.nextDue, silence := s.bus.silence.passMs } }

/-- One millisecond passes: the line rests, and the timers run. -/
def State.passMs (s : State) : State := if s.inReset then s else s.restLine.passTimers

end Sys2Proof.Machine
end

