-- ==== Sys2Proof/Safety.lean ====
section
/-! DEFINITION. What counts as safe, in the terms the statements use: the laws that the manual's prose gives (each a predicate
of a state), and the words for a part that hears a frame. -/

namespace Sys2Proof.Machine

/-! ## Laws of the manual -/

/-- R39 and R53: the outputs are those of the axis state; the speed reference lies in [−1000, +1000], and is 0 while the drive
enable output is off. -/
def AxisUnit.outputsOk (a : AxisUnit) : Prop :=
  a.driveEnable = a.state.enables ∧ a.brakeRelease = a.state.releases ∧ -1000 ≤ a.speedRef ∧ a.speedRef ≤ 1000 ∧
    (a.driveEnable = false → a.speedRef = 0)

/-- Both axes' outputs. -/
def State.outputsOk (s : State) : Prop := s.slew.outputsOk ∧ s.rake.outputsOk

/-- R170, R175: the STOP line is driven exactly while the fault record or the also-seen set holds a STOP_ALL kind, and is sensed
ASSERTED while this station drives it. -/
def State.lineDriveOk (s : State) : Prop :=
  s.fault.drivesStop = s.fault.held.any FaultKind.stopAll ∧ (s.fault.drivesStop = true → s.fault.lineAsserted = true)

/-- R183, the law of the latch: the write-enable latch is clear whenever the mode is not COMMISSION. -/
def State.latchOk (s : State) : Prop := s.store.latch = true → s.comm.mode = .commission

/-- How many rows of the guard table are CLAIMING. -/
def ZoneGuard.claims (z : ZoneGuard) : Nat := z.rows.countP (fun r => decide (r.guard = .claiming))

/-- R86, the law of the guard table: at most one row is CLAIMING. -/
def State.oneClaim (s : State) : Prop := s.zones.claims ≤ 1

/-- The speed a goal carries. -/
def Goal.speed : Goal → Nat
  | .position _ v => v
  | .velocity _ v => v
  | .brake _ => 0

/-- R22, the law of the axis velocity, for an axis with parameters `p`: |V|, the Vseg in force and the Vseg of a pending
request are at most Vmax, and so are Vcreep and the |V| that the last tick left; V is what that tick left (R10, R20), or 0. -/
def AxisUnit.speedOk (p : AxisParams) (a : AxisUnit) : Prop :=
  a.v.natAbs ≤ p.vmax ∧ (∀ g, a.mode = some g → g.speed ≤ p.vmax) ∧
    (∀ r, a.pending = some r → r.goal.speed ≤ p.vmax) ∧ p.vcreep ≤ p.vmax ∧ a.tickV.natAbs ≤ p.vmax ∧
    (a.v = a.tickV ∨ a.v = 0)

/-- R22 for both axes; no record is in force in START, so nothing moves there. -/
def State.speedsOk (s : State) : Prop :=
  s.slew.speedOk (s.params .slew) ∧ s.rake.speedOk (s.params .rake) ∧
    (s.comm.mode = .start → s.comm.record = none)

/-- R104: at most 8 records, at most one per station. -/
def State.peerViewOk (s : State) : Prop := s.peers.length ≤ 8 ∧ (s.peers.map (·.station)).Nodup

/-- The slot that a self-timed operation works on. -/
def StoreOp.target : StoreOp → Option Nat
  | .erase n => some n
  | .program n _ _ => some n
  | .finalize n _ _ _ => some n
  | .lock n => some n
  | .commit _ => none

/-- No operation works on a LOCKED slot, and none runs in START (R184, R185). -/
def State.jobOk (s : State) : Prop :=
  ∀ j, s.store.job = some j →
    s.comm.mode ≠ .start ∧
      ∀ n, j.op.target = some n → 1 ≤ n ∧ ∀ sl, s.nv.slots[n - 1]? = some sl → sl.state ≠ .locked

/-- What a slot holds (R185): everything but the mark that START's check puts on it. -/
def Slot.contents (sl : Slot) : SlotHeld × Option SlotHeader × List Cell × Bool := (sl.held, sl.header, sl.cells, sl.torn)

/-! ## A part that hears a frame -/

/-- The part takes frames of this sender and hands them on (R157, R166): it is out of reset, in OPERATIONAL, in COMMISSION, or
in UNCONFIGURED with a station number, and the sender is no double of it (R113). -/
def State.hears (s : State) (snd : Sender) : Prop :=
  s.inReset = false ∧
    (s.comm.mode = .operational ∨ s.comm.mode = .commission ∨ (s.comm.mode = .unconfigured ∧ s.comm.straps ≠ 0)) ∧
    (s.comm.straps = 0 ∨ snd.station.toNat ≠ s.comm.straps ∨ snd.unitTag = s.nv.unitTag)

/-- The state once the receiver has taken a frame (R155). -/
def State.heard (s : State) (frame : List Byte) : State :=
  { s with bus := { s.bus with rx := s.bus.rx.tookFrame frame } }

/-- A command of a configured console for this station, in a mode that judges it (R162). -/
def State.commanded (s : State) (h : CommandHead) : Prop :=
  s.hears h.sender ∧ s.comm.mode ≠ .unconfigured ∧ s.comm.restartPending = false ∧
    inTargets h.targets s.station = true ∧ h.sender.station.toNat ∈ s.consoles

/-- A service request that this station takes into place `n` of its reply FIFO (R164). -/
def State.requested (s : State) (r : ServiceReq) (n : Nat) : Prop :=
  s.hears r.sender ∧ r.wf = true ∧ r.target.toNat = s.station ∧ s.bus.freePlace = some n

/-- The reply that stands READY in a place. -/
def State.readyReply (s : State) (n : Nat) : Option (List Byte) :=
  match s.bus.place n with
  | .ready f => some f
  | .reserved _ => none
  | .free => none

/-- The SERVICE_REPLY frame of this station for a request (section 9.2). -/
def State.replyTo (s : State) (kind : Byte) (r : ServiceReq) (outcome : Nat) (data : List Byte) : List Byte :=
  frameBytes 5#3 s.self (r.sender.station.setWidth 8 :: kind :: r.tag :: BitVec.ofNat 8 outcome :: data)

/-- A stretch of the line on which another station sends `frame` after an idle, up to the idle that ends it (section 9.1). -/
def lineOf (frame : List Byte) : List LineEvent := .recessive 11 :: .edge 0 :: (frameEvents frame ++ [.recessive 10])

/-- A service request taken into place `n` (R164): the frame received, jumper and straps read (R179, R181), and the place in `p`. -/
def State.took (s : State) (kind : Byte) (r : ServiceReq) (n : Nat) (p : Place) : State :=
  { s.heard (serviceFrame kind r) with
    comm := { s.comm with jumper := r.jumper, strapLevel := r.straps }
    bus := (s.heard (serviceFrame kind r)).bus.setPlace n p }

/-- A service request answered at once (R164): its reply READY in place `n`, behind the replies that were READY before. -/
def State.replied (s : State) (kind : Byte) (r : ServiceReq) (n : Nat) (outcome : Nat) (data : List Byte) : State :=
  let t := s.took kind r n (.ready (s.replyTo kind r outcome data))
  { t with bus := ({ t.bus with readyOrder := s.bus.readyOrder ++ [n] } : Bus).startSilence }

/-- A service request whose operation begins (R164, R183): place `n` RESERVED for its reply, the store busy for `time` ms. -/
def State.began (s : State) (kind : Byte) (r : ServiceReq) (n : Nat) (op : StoreOp) (time : Nat) : State :=
  { s.took kind r n (.reserved { requester := r.sender.station, kind := kind, tag := r.tag }) with
    store := { s.store with job := some { op := op, left := time, place := n } } }

/-- The soft limits in force for the slew, lower and upper. -/
def State.slewSoft (s : State) : Int × Int := ((s.params .slew).softLo, (s.params .slew).softHi)

/-- The conditions of R143, in the order given, for a run of axis `x` in direction `d`: the outcome of the first that fails. R144's
exception stands beside the fifth. -/
def State.runRefusal (s : State) (x : Axis) (d : Dir) : Option CmdOutcome :=
  if s.comm.mode ≠ .operational then some .refusedState
  else if s.seq.state = .armed ∨ s.seq.state = .running ∨ s.seq.state = .paused then some .refusedBusy
  else if s.mon.run ≠ .none then some .refusedBusy
  else if s.fault.lineAsserted = true then some .refusedStopLine
  else if s.fault.record.isSome ∧
      ¬ ((∀ k ∈ s.fault.held, k = .limit) ∧ (s.axis x).limit (dirOpposite d) = true) then some .refusedFault
  else if s.mon.present = false then some .refusedNoEnable
  else if (s.axis x).limit d = true then some .refusedLimit
  else none

/-- The axis byte and the direction byte of a command (section 9.2). -/
def axisByte : Axis → Byte
  | .slew => 0
  | .rake => 1

def dirByte : Dir → Byte
  | .pos => 0
  | .neg => 1

/-- The first direction of a search (R12): the configured one for the slew, down for the rake. -/
def State.searchDir (s : State) : Axis → Dir
  | .slew => (s.params .slew).homeDir
  | .rake => .neg

/-! ## What a stop leaves alone -/

/-- What no stop changes of an axis: its count, its reference, all its inputs and the velocity that the last tick left. -/
def AxisUnit.sensesSame (a b : AxisUnit) : Prop :=
  b.e = a.e ∧ b.chA = a.chA ∧ b.chB = a.chB ∧ b.lastDir = a.lastDir ∧ b.referenced = a.referenced ∧
    b.capture = a.capture ∧ b.negLimit = a.negLimit ∧ b.posLimit = a.posLimit ∧ b.ready = a.ready ∧
    b.refSwitch = a.refSwitch ∧ b.pwm = a.pwm ∧ b.tickV = a.tickV

/-- Going from `s` to `t` stops axes and ends a conversion and a run, and does nothing to the rest but the fault unit and the
bus (R163, R169, R175). -/
def State.stopsOnly (s t : State) : Prop :=
  t.pending = s.pending ∧ t.inReset = s.inReset ∧ t.nv = s.nv ∧ t.comm = s.comm ∧ t.store = s.store ∧
    t.tickLeft = s.tickLeft ∧ t.env = s.env ∧ t.zones.rows = s.zones.rows ∧ t.chainOpen = s.chainOpen ∧
    t.fresh = s.fresh ∧ s.slew.sensesSame t.slew ∧ s.rake.sensesSame t.rake

/-- What a stop of kind `k` makes of an axis (R31, R43, R48): STOPPING with the mode dropped out of TRACKING, the order raised
in STOPPING, a start cancelled, an axis at rest where it was; a request that waited is gone. -/
def AxisUnit.stoppedBy (k : StopKind) (a b : AxisUnit) : Prop :=
  match a.state with
  | .tracking false => b.state = .stopping k ∧ b.mode = none ∧ b.v = a.v ∧ b.p = a.p
  | .stopping j => b.state = .stopping (if j = .quick then .quick else k) ∧ b.v = a.v ∧ b.p = a.p ∧ b.pending = none
  | .starting .awaitReady => b.state = .off ∧ b.driveEnable = false ∧ b.brakeRelease = false ∧ b.pending = none
  | .starting .releasing => (b.state = .settling ∨ b.state = .off) ∧ b.brakeRelease = false ∧ b.pending = none
  | .tracking true => b.state = .tracking true ∧ b.timer = a.timer ∧ b.pending = none
  | .off => b.state = .off ∧ b.pending = none
  | .settling => b.state = .settling ∧ b.timer = a.timer ∧ b.pending = none
  | .faulted => b.state = .faulted ∧ b.pending = none

/-- An axis in FAULTED as its entry leaves it (R50); a limit still meets the velocity of the last tick (R10). -/
def AxisUnit.faultedAt (a b : AxisUnit) : Prop :=
  b.state = .faulted ∧ b.driveEnable = false ∧ b.brakeRelease = false ∧ b.speedRef = 0 ∧ b.timer = none ∧
    b.mode = none ∧ b.requester = none ∧ b.pending = none ∧ b.p = a.e ∧ b.f = 0 ∧ b.v = 0 ∧ b.tickV = a.tickV

/-- A conversion that is stopped (R125, R137): RUNNING or PAUSED to ABORTED with layout and step kept, ARMED to IDLE with
layout 0, and any other state unchanged. -/
def Sequencer.endedFrom (q r : Sequencer) : Prop :=
  match q.state with
  | .running => r.state = .aborted ∧ r.layout = q.layout ∧ r.step = q.step ∧ r.phase = .none
  | .paused => r.state = .aborted ∧ r.layout = q.layout ∧ r.step = q.step ∧ r.phase = .none
  | .armed => r.state = .idle ∧ r.layout = 0 ∧ r.step = 0 ∧ r.phase = .none ∧ r.armed = none ∧ r.holdOff = none
  | .idle => r = q
  | .complete => r = q
  | .aborted => r = q

/-! ## The manual's arithmetic -/

/-- R25's table, the first case that holds: the candidate in POSITION mode with `d` counts to go at velocity `v`. -/
def tableCandidate (a vcreep vseg : Nat) (d v : Int) : Int :=
  if v ≠ 0 ∧ v.sign ≠ d.sign then v.sign * (v.natAbs - a : Nat)
  else if d.natAbs ≤ v.natAbs ^ 2 / (2 * a * 65536) then d.sign * max (v.natAbs - a) (min vcreep vseg)
  else if v.natAbs < vseg then d.sign * min (v.natAbs + a) vseg
  else if vseg < v.natAbs then d.sign * max (v.natAbs - a) vseg
  else d.sign * v.natAbs

/-! ## Steps of a script -/

/-- A step that has a step form (section 9.2, R184): valid, and every field within its width. -/
def StepRecord.fits (r : StepRecord) : Prop :=
  r.valid = true ∧ r.conds.length ≤ 2 ∧ (∀ c ∈ r.conds, c.2 ≤ 15) ∧
    (∀ t v, r.slew = some (t, v) → posMin ≤ t ∧ t ≤ posMax ∧ v < 65536) ∧
    (∀ t v, r.rake = some (t, v) → posMin ≤ t ∧ t ≤ posMax ∧ v < 65536)

/-- The law of the step index (R131), with what carries it: while ARMED, RUNNING or PAUSED the step index is less than the step
count; outside START every slot that stands PROGRAMMED or LOCKED counts at least one step (R186); a FINALIZE_SLOT under way
writes a count of at least one, and a LOCK_SLOT under way works on such a header (R185). -/
def State.stepIndexOk (s : State) : Prop :=
  ((s.seq.state = .armed ∨ s.seq.converting = true) → s.seq.step < s.seq.count) ∧
    (s.comm.mode ≠ .start → ∀ sl ∈ s.nv.slots, ∀ h, sl.header = some h →
      sl.state = .programmed ∨ sl.state = .locked → 1 ≤ h.count) ∧
    (∀ j n lay cnt chk, s.store.job = some j → j.op = .finalize n lay cnt chk → 1 ≤ cnt) ∧
    (∀ j n, s.store.job = some j → j.op = .lock n →
      ∀ sl, s.nv.slots[n - 1]? = some sl → ∀ h, sl.header = some h → 1 ≤ h.count)

end Sys2Proof.Machine
end

