-- ==== Sys2Proof/Certificates/Slice0/Obligations.lean ====
section
/-! DEFINITION. The statements for the provers. Each docstring names the rule that a statement formalises, and the log entry
where it rests on a choice of the model. -/

open Sys2Proof Sys2Proof.Machine

/-! ## The block and its queue -/

/-- The step runs the command at the front of the queue on the state with the queue's rest (log entry 23, the model's choice). On
an empty queue a millisecond passes (log entry 3, the model's choice): the timers in progress run, down to 0 or up to their
bounds, a line that this station does not drive rests, which a receiver in START_CHECK or DATA does not sample, and nothing else changes; a
part held in reset stays as it is. -/
def Obligations.StepRunsFrontCommand : Prop :=
  (∀ (c : Instr) (s : State), step { s with pending := c :: s.pending } = exec c s) ∧
  (∀ s : State, s.pending = [] → s.inReset = true → step s = .next s) ∧
  (∀ s : State, s.pending = [] → s.inReset = false →
    (s.bus.tx = .quiet → s.bus.rx.state = .between → s.bus.rx.own = true) →
    let down (t : Option Nat) : Option Nat := t.map (· - 1)
    let asking : Prop := ∃ g ∈ s.zones.rows, g.need = .travel ∧ (g.guard = .claiming ∨ g.guard = .waiting)
    let bound (r : PeerRecord) : Nat :=
      match r.freshness with | .unheard => 0 | .fresh => 75 | .stale => 500 | .lost => 65535
    ∃ t, step s = .next t ∧
      t = { s with
        comm := { s.comm with restartLeft := down s.comm.restartLeft }
        store := { s.store with job := s.store.job.map (fun j => { j with left := j.left - 1 }) }
        slew := { s.slew with timer := down s.slew.timer }
        rake := { s.rake with timer := down s.rake.timer }
        tickLeft := s.tickLeft - 1
        zones := { t.zones with rows := s.zones.rows.map (fun g => { g with window := down g.window }) }
        peers := s.peers.map (fun r => { r with age := r.age.map (fun a => if a < bound r then a + 1 else a) })
        seq := { s.seq with
          holdOff := down s.seq.holdOff, stepElapsed := t.seq.stepElapsed, dwellElapsed := t.seq.dwellElapsed }
        mon := { s.mon with timer := down s.mon.timer }
        bus := { s.bus with nextDue := down s.bus.nextDue, silence := t.bus.silence, rx := t.bus.rx } } ∧
      (¬ (s.seq.state ≠ .paused ∧ asking) → t.zones.waitElapsed = s.zones.waitElapsed) ∧
      (∀ r, s.comm.record = some r → s.seq.state ≠ .paused → asking →
        t.zones.waitElapsed = min (1000 * r.zoneWait) (s.zones.waitElapsed + 1)) ∧
      (s.seq.state = .running → s.seq.phase = .waitPeers ∨ s.seq.phase = .moving →
        t.seq.stepElapsed = min s.stepLimitMs (s.seq.stepElapsed + 1)) ∧
      (s.seq.state ≠ .running ∨ (s.seq.phase ≠ .waitPeers ∧ s.seq.phase ≠ .moving) →
        t.seq.stepElapsed = s.seq.stepElapsed) ∧
      (s.seq.state = .running → s.seq.phase = .dwell →
        t.seq.dwellElapsed = min (s.currentStep.dwell.getD 0) (s.seq.dwellElapsed + 1)) ∧
      (s.seq.state ≠ .running ∨ s.seq.phase ≠ .dwell → t.seq.dwellElapsed = s.seq.dwellElapsed) ∧
      (∀ n, s.bus.silence = .running n → t.bus.silence = .running (min 250 (n + 1))) ∧
      ((∀ n, s.bus.silence ≠ .running n) → t.bus.silence = s.bus.silence) ∧
      (s.bus.tx = .quiet → s.bus.rx.state = .hunting → t.bus.rx = { s.bus.rx with recessive := 11 }) ∧
      (s.bus.tx = .quiet → s.bus.rx.state = .between →
        t.bus.rx = { s.bus.rx with state := .hunting, recessive := 11, own := false }) ∧
      (s.bus.tx ≠ .quiet ∨ s.bus.rx.state = .startCheck ∨ s.bus.rx.state = .data → t.bus.rx = s.bus.rx))

/-- Every command completes in every state and takes nothing from the queue. Both are the model's: that a command meets the
queue's rest and leaves it is its queue (log entry 23, DESIGN CHOICE), and that no meaning faults or refuses is read from the
manual, which gives each thing that reaches the part an effect in every state (log entry 24, DEDUCED). -/
def Obligations.EveryCommandCompletes : Prop :=
  ∀ (c : Instr) (s : State), ∃ t, exec c s = .next t ∧ t.pending = s.pending

/-! ## Frames and step forms -/

/-- R156, section 9.2: the frame of every well-formed frame row passes every check and is that row again, whatever its
fields. -/
def Obligations.FrameRoundTrip : Prop :=
  ∀ (c : Instr) (f : List Byte), c.wf = true → encodeFrame c = some f → decodeFrame c.jumper c.strapLevel f = some c

/-- R184, section 9.2: the step form of every step that fits reads back as that step, alone and as the first of two. -/
def Obligations.StepFormRoundTrip : Prop :=
  ∀ (a b : StepRecord), a.fits → b.fits →
    stepForms a.form = some [a] ∧ stepForms (a.form ++ b.form) = some [a, b]

/-- R153 to R156: a frame of 1 to 46 characters that another station sends after an idle reaches the checks whole, and no more
than one report comes of it. The receiver is left in HUNTING at line idle with the frame in its buffer. -/
def Obligations.LineBringsFrame : Prop :=
  ∀ (s : State) (f : List Byte), s.inReset = false → s.bus.tx = .quiet → s.bus.rx.state = .hunting → 1 ≤ f.length → f.length ≤ 46 →
    let taken : State := { s with bus := { s.bus with
      rx := { state := .hunting, recessive := 11, buffer := f, lastEdge := 10 * (f.length - 1), bits := [], own := false } } }
    ∃ t, exec (.frameDiscard (lineOf f)) s = .next t ∧ t = taken.frameEnd f ∧ t.bus.rx = taken.bus.rx

/-- R154, R155: a dominant edge 16 to 19 bit times after the last start edge, a dominant stop bit, and a 47th character each
discard the frame in progress and leave the receiver in HUNTING with the count at zero. An edge within 15 bit times begins the
next character of the frame; one 20 bit times after or later finds the frame ended, which goes to its checks, and begins a new
one, in whose START_CHECK the receiver is left. A frame that goes on after this station's own is not its own (log entry 21, DEDUCED). -/
def Obligations.LineErrorsDiscard : Prop :=
  ∀ (s : State) (time : Nat), s.inReset = false → s.bus.tx = .quiet →
    let dropped : State := { s with bus := { s.bus with
      rx := { s.bus.rx with state := .hunting, recessive := 0, bits := [], own := false } } }
    let edged (buffer : List Byte) : State := { s with bus := { s.bus with
      rx := { s.bus.rx with state := .startCheck, lastEdge := time, bits := [], own := false, buffer := buffer } } }
    let since : Nat := time - s.bus.rx.lastEdge
    (s.bus.rx.state = .between → since ≤ 15 →
        exec (.frameDiscard [.edge time]) s = .next (edged s.bus.rx.buffer)) ∧
      (s.bus.rx.state = .between → s.bus.rx.own = false → 15 < since → since < 20 →
        exec (.frameDiscard [.edge time]) s = .next dropped.discard) ∧
      (s.bus.rx.state = .between → s.bus.rx.own = false → 20 ≤ since →
        ∃ t, exec (.frameDiscard [.edge time]) s = .next t ∧ t = (edged []).frameEnd s.bus.rx.buffer ∧
          t.bus.rx = (edged []).bus.rx) ∧
      (s.bus.rx.state = .data → s.bus.rx.bits.length = 8 →
        exec (.frameDiscard [.sample false]) s = .next dropped.discard) ∧
      (s.bus.rx.state = .data → s.bus.rx.bits.length = 8 → s.bus.rx.buffer.length = 46 →
        exec (.frameDiscard [.sample true]) s = .next dropped.discard)

/-- R124 and R156: a frame that fails its checks annuls an ARMED conversion, with the outcome ANNULLED against the armed command,
the script peers dropped and a status requested, and changes nothing else; in every other state of the sequencer it changes the
receiver alone. -/
def Obligations.DiscardAnnulsArmed : Prop :=
  ∀ (s : State) (f : List Byte) (con tag : Nat), s.inReset = false → s.bus.tx = .quiet → s.bus.rx.state = .hunting →
    1 ≤ f.length → f.length ≤ 46 → decodeFrame s.comm.jumper s.comm.strapLevel f = none → s.comm.mode ≠ .start →
    s.comm.mode ≠ .isolated →
    ∃ t, exec (.frameDiscard (lineOf f)) s = .next t ∧
      (s.seq.state = .armed → s.seq.armed = some (con, tag) →
        t.seq.state = .idle ∧ t.seq.layout = 0 ∧ t.seq.step = 0 ∧ t.seq.phase = .none ∧ t.seq.armed = none ∧
          t.seq.holdOff = none ∧ t.bus.outcome = some { console := con, tag := tag, outcome := .annulled } ∧
          t.peers = (s.peers.filter (·.zoneRole)).map (fun r => { r with scriptRole := false }) ∧
          t = { s with seq := t.seq, peers := t.peers, bus := t.bus } ∧
          t.bus = { s.bus with
            rx := t.bus.rx, outcome := t.bus.outcome, statusPending := t.bus.statusPending, silence := t.bus.silence } ∧
          t.bus.statusPending = true) ∧
      (s.seq.state ≠ .armed → t = { s with bus := { s.bus with rx := t.bus.rx } }) ∧
      t.slew = s.slew ∧ t.rake = s.rake ∧ t.mon = s.mon ∧ t.fault = s.fault ∧ t.zones = s.zones ∧ t.env = s.env ∧
      t.comm = s.comm ∧ t.nv = s.nv ∧ t.store = s.store

/-- R157, R166: in START every frame changes the receiver alone, and in ISOLATED every good frame of another part; in the modes
that hand frames on, a SERVICE_REPLY is received, given to the duplicate check and handed to no block. -/
def Obligations.ReceivedAndNotHandedOn : Prop :=
  ∀ (s : State) (c : Instr) (snd : Sender) (requester kind tag outcome : Byte) (data : List Byte),
    (s.inReset = false → s.comm.mode = .start → c.sender.isSome → exec c s = .next (s.heard c.frame)) ∧
      (s.inReset = false → s.comm.mode = .isolated → c.wf = true → c.sender = some snd →
        snd.station.toNat ≠ s.comm.straps ∨ snd.unitTag = s.nv.unitTag → exec c s = .next (s.heard c.frame)) ∧
      (s.hears snd →
        let r : Instr := .serviceReplyFrame snd requester kind tag outcome data
        r.wf = true → exec r s = .next (s.heard r.frame))

/-- R113, R171, R166: any good frame that bears this station's number with another unit tag reports DUPLICATE_STATION with the
number as its peer, and the station enters ISOLATED with nothing left to send. That such a frame met in ISOLATED clears the flag
and the queue again is log entry 9 (DEDUCED). -/
def Obligations.DuplicateIsolates : Prop :=
  ∀ (s : State) (c : Instr) (snd : Sender), s.inReset = false → s.comm.mode ≠ .start → s.comm.straps ≠ 0 →
    c.wf = true → c.sender = some snd → snd.station.toNat = s.comm.straps → snd.unitTag ≠ s.nv.unitTag → s.lineDriveOk →
    ∃ t, exec c s = .next t ∧ t.comm.mode = .isolated ∧ FaultKind.duplicateStation ∈ t.fault.held ∧
      t.fault.drivesStop = true ∧
      (s.fault.record = none → ∃ r, t.fault.record = some r ∧ r.kind = .duplicateStation ∧
        r.fields = { axis := none, zone := none, peer := some s.comm.straps }) ∧
      t.bus.statusPending = false ∧ t.bus.place0 = .free ∧ t.bus.place1 = .free ∧ t.bus.nextDue = none ∧
      t.bus.silence = .stopped ∧ t.store.latch = false ∧ t.mon.run = .none ∧ t.peers.length ≤ s.peers.length ∧
      t.nv = s.nv

/-! ## The transmitter -/

/-- R158, R159: at an idle line a start sends the status, built now, when one is pending after the first due time, and otherwise
the reply that became READY first; before the line is idle nothing starts. An own frame that completes frees its reply's place,
restarts or stops the silence timer (R161) and is told to the fault unit (R167); a frame whose every bit is read back as driven
completes so. The receiver's own state is the model's convention (log entry 21). -/
def Obligations.TransmitterStartsAndEnds : Prop :=
  ∀ (s : State) (n : Nat) (rest : List Nat) (f : List Byte) (bit : Nat) (src : TxSource), s.inReset = false →
    (s.bus.rx.state ≠ .hunting ∨ s.bus.rx.recessive < 11 → exec .transmitStart s = .next s) ∧
    (s.sends = true → s.bus.tx = .quiet → s.bus.rx.state = .hunting → s.bus.rx.recessive = 11 →
      s.bus.statusPending = true → s.bus.firstDue = true →
      exec .transmitStart s = .next { s with bus := { s.bus with
        tx := .sending .status s.statusFrame 0, rx := s.bus.rx.startOwn, statusPending := false } }) ∧
    (s.sends = true → s.bus.tx = .quiet → s.bus.rx.state = .hunting → s.bus.rx.recessive = 11 →
      (s.bus.statusPending = false ∨ s.bus.firstDue = false) → s.bus.readyOrder = n :: rest → s.bus.place n = .ready f →
      exec .transmitStart s = .next { s with bus := { s.bus with
        tx := .sending (.reply n) f 0, rx := s.bus.rx.startOwn } }) ∧
    (s.bus.tx = .sending src f bit → ∃ t, exec .frameComplete s = .next t ∧
      t = { s with bus := t.bus, fault := { s.fault with sentSinceSilence := true } } ∧ t.bus.tx = .quiet ∧
      t.bus.statusPending = s.bus.statusPending ∧ t.bus.nextDue = s.bus.nextDue ∧ t.bus.outcome = s.bus.outcome ∧
      (src = .status → t.bus.place0 = s.bus.place0 ∧ t.bus.place1 = s.bus.place1 ∧
        t.bus.readyOrder = s.bus.readyOrder) ∧
      (src = .reply n → t.bus.place n = .free ∧ n ∉ t.bus.readyOrder) ∧
      t.bus.silence = if s.sends && t.bus.sendable then .running 0 else .stopped) ∧
    (s.bus.tx = .sending src f 0 → 1 ≤ f.length → f.length ≤ 46 →
      s.bus.rx = { state := .startCheck, recessive := 11, buffer := [], lastEdge := 0, bits := [], own := true } →
      exec (.frameDiscard (frameEvents f)) s = exec .frameComplete s)

/-- R158, R159: a station that reads another level than it drives in a data bit stops driving at once; its receiver goes on with
the displacing frame, in which it has sampled the bits so far; a withdrawn status is pending again, with a silence timer that
stood still started where a frame may then be sent (R161), and a withdrawn reply is still in its place. That the status is pending
again also in ISOLATED, where R166 starts no further frame, is log entry 9 (DEDUCED). -/
def Obligations.WithdrawReceivesOn : Prop :=
  ∀ (s : State) (src : TxSource) (f : List Byte) (at_ i j : Nat) (b : Byte), s.inReset = false →
    s.bus.tx = .sending src f at_ → f.length ≤ 46 → f[i]? = some b → 1 ≤ j → j ≤ 8 →
    ∃ rx : Receiver, rx.state = .data ∧ rx.own = false ∧ rx.buffer = f.take i ∧
      rx.bits = (bitsOf b).take (j - 1) ++ [!(bitsOf b).getD (j - 1) false] ∧
      let quiet : State := { s with bus := { s.bus with tx := .quiet, rx := rx } }
      exec (.withdraw (10 * i + j)) s = .next (if src = .status then { quiet with bus := { quiet.bus with
        statusPending := true
        silence := if s.sends = true ∧ (s.bus.firstDue = true ∨ s.bus.readyOrder ≠ []) ∧ s.bus.silence = .stopped then .running 0
          else s.bus.silence } } else quiet)

/-- R160, R161: a due time makes a status pending and sets the next due time 25 ms on, the silence timer starting if it stood
still; a silence timer that reaches 250 ms reports BUS_SILENT, which clears the sent-since-silence flag and never starts the STOP
line drive, and then stands reported. -/
def Obligations.ScheduleAndSilence : Prop :=
  ∀ (s : State) (n : Nat), s.inReset = false →
    (s.sends = true → s.bus.nextDue.isSome → exec .statusDue s = .next { s with bus := { s.bus with
      statusPending := true, firstDue := true, nextDue := some 25,
      silence := if s.bus.silence = .stopped then .running 0 else s.bus.silence } }) ∧
    (s.bus.silence = .running n → s.lineDriveOk → ∃ t, exec .busSilent s = .next t ∧ t.bus.silence = .reported ∧
      FaultKind.busSilent ∈ t.fault.held ∧ t.fault.sentSinceSilence = false ∧ t.fault.drivesStop = s.fault.drivesStop ∧
      (s.fault.record = none → ∃ r, t.fault.record = some r ∧ r.kind = .busSilent ∧
        r.fields = { axis := none, zone := none, peer := none }) ∧ s.stopsOnly t) ∧
    ((∀ m, s.bus.silence ≠ .running m) → exec .busSilent s = .next s)

/-! ## Position units -/

/-- R1: a transition that follows the positive column of the table counts +1 and sets the last direction UP, one that follows the
negative column counts −1 and sets it DOWN, and the decoder pair takes the new levels; in every station mode and axis state, and
nothing else changes. The ends of the position range are R3's. -/
def Obligations.EncoderCounts : Prop :=
  ∀ (s : State) (x : Axis) (a b : Bool), s.inReset = false →
    let u := s.axis x
    ((a, b) = nextPositive u.chA u.chB → posMin ≤ u.e → u.e < posMax →
      exec (.encoderTransition x a b) s =
        .next (s.setAxis x { u with e := u.e + 1, lastDir := some .pos, chA := a, chB := b })) ∧
    ((u.chA, u.chB) = nextPositive a b → posMin < u.e → u.e ≤ posMax →
      exec (.encoderTransition x a b) s =
        .next (s.setAxis x { u with e := u.e - 1, lastDir := some .neg, chA := a, chB := b }))

/-- R2, R3: a change of both channels keeps E and the last direction; a count past an end of the range keeps E and sets the last
direction; both take the new levels, make the axis UNREFERENCED and report ENCODER_SLIP with the axis. -/
def Obligations.EncoderSlips : Prop :=
  ∀ (s : State) (x : Axis) (a b : Bool), s.inReset = false →
    let u := s.axis x
    let slipped (t : State) (d : Option Dir) : Prop :=
      (t.axis x).e = u.e ∧ (t.axis x).lastDir = d ∧ (t.axis x).chA = a ∧ (t.axis x).chB = b ∧
        (t.axis x).referenced = false ∧ FaultKind.encoderSlip ∈ t.fault.held ∧
        (s.fault.record = none → ∃ r, t.fault.record = some r ∧ r.kind = .encoderSlip ∧
          r.fields = { axis := some x, zone := none, peer := none } ∧ r.slewE = s.slew.e ∧ r.rakeE = s.rake.e) ∧
        (s.axis (otherAxis x)).sensesSame (t.axis (otherAxis x)) ∧ t.nv = s.nv ∧ t.comm = s.comm ∧
        t.store = s.store ∧ t.env = s.env ∧ t.zones.rows = s.zones.rows
    (a = !u.chA → b = !u.chB → ∃ t, exec (.encoderTransition x a b) s = .next t ∧ slipped t u.lastDir) ∧
    ((a, b) = nextPositive u.chA u.chB → u.e = posMax →
      ∃ t, exec (.encoderTransition x a b) s = .next t ∧ slipped t (some .pos)) ∧
    ((u.chA, u.chB) = nextPositive a b → u.e = posMin →
      ∃ t, exec (.encoderTransition x a b) s = .next t ∧ slipped t (some .neg))

/-- R4 to R7: a slew index, and a rake switch closing while the last direction is DOWN, capture E before anything else; outside a
search before its preset the use is WITHIN, SLIP or UNCHECKED and E is not corrected; SLIP makes the axis UNREFERENCED and
reports ENCODER_SLIP. With a record in force. -/
def Obligations.MarkJudged : Prop :=
  ∀ (s : State) (x : Axis) (r : Record), s.inReset = false → s.comm.record = some r →
    ((s.axis x).leg.any Leg.beforePreset) = false →
    (x = .rake → s.rake.refSwitch = false ∧ s.rake.lastDir = some .neg) →
    let row : Instr := match x with | .slew => .slewIndexMark | .rake => .rakeSwitchClose
    let s1 : State := match x with | .slew => s | .rake => { s with rake := { s.rake with refSwitch := true } }
    let off : Int := (s.axis x).e - (r.axis x).mark
    let capture (use : MarkUse) : Capture :=
      { captured := (s.axis x).e, deviation := off
        marks := (((s.axis x).capture.map (·.marks)).getD 0 + 1) % 256, use := use }
    ((s.axis x).referenced = false →
      exec row s = .next (s1.setAxis x { s1.axis x with capture := some (capture .unchecked) })) ∧
    ((s.axis x).referenced = true → off.natAbs ≤ (r.axis x).slip →
      exec row s = .next (s1.setAxis x { s1.axis x with capture := some (capture .within) })) ∧
    ((s.axis x).referenced = true → (r.axis x).slip < off.natAbs →
      ∃ t, exec row s = .next t ∧ (t.axis x).capture = some (capture .slip) ∧ (t.axis x).e = (s.axis x).e ∧
        (t.axis x).referenced = false ∧ FaultKind.encoderSlip ∈ t.fault.held ∧
        (s.fault.record = none → ∃ q, t.fault.record = some q ∧ q.kind = .encoderSlip ∧
          q.fields = { axis := some x, zone := none, peer := none }) ∧ t.nv = s.nv ∧ t.comm = s.comm ∧ t.env = s.env)

/-- R13: the first mark of a search is the preset: E becomes the mark position, P moves by the same difference and saturates, F
and V stay, the axis is REFERENCED, the leg is STOPPING under a controlled stop, and the homing run goes on. -/
def Obligations.MarkPresets : Prop :=
  ∀ (s : State) (x : Axis) (r : Record) (l : Leg), s.inReset = false → s.comm.record = some r →
    (s.axis x).leg = some l → l ≠ .stopping → (s.axis x).state = .tracking false →
    (s.axis x).requester = some .positionUnit →
    (x = .rake → s.rake.refSwitch = false ∧ s.rake.lastDir = some .neg) →
    let row : Instr := match x with | .slew => .slewIndexMark | .rake => .rakeSwitchClose
    ∃ t, exec row s = .next t ∧ (t.axis x).e = (r.axis x).mark ∧
      (t.axis x).p = max posMin (min posMax ((s.axis x).p + ((r.axis x).mark - (s.axis x).e))) ∧
      (t.axis x).f = (s.axis x).f ∧ (t.axis x).v = (s.axis x).v ∧ (t.axis x).tickV = (s.axis x).tickV ∧
      (t.axis x).referenced = true ∧
      (t.axis x).leg = some .stopping ∧ (t.axis x).state = .stopping .controlled ∧ (t.axis x).mode = none ∧
      (t.axis x).capture.map (·.use) = some .preset ∧ (t.axis x).capture.map (·.captured) = some (s.axis x).e ∧
      t.mon = s.mon ∧ t.fault = s.fault ∧ t.seq = s.seq ∧ t.axis (otherAxis x) = s.axis (otherAxis x) ∧
      ((s.axis x).referenced = false → t.bus.statusPending = true)

/-- R5, R15: the switch closing with the last direction not DOWN, and its opening outside an upward RETURN, change only the input;
its opening in RETURN while moving up turns the search to TURNING, braking at A. With both limits ACTIVE that brake is refused
(R11; log entry 12): the profile goes on as it was and the homing run ends. -/
def Obligations.RakeSwitchEdges : Prop :=
  ∀ (s : State), s.inReset = false →
    (s.rake.lastDir ≠ some .neg →
      exec .rakeSwitchClose s = .next { s with rake := { s.rake with refSwitch := true } }) ∧
    (¬ (s.rake.lastDir = some .pos ∧ s.rake.leg = some .returning) →
      exec .rakeSwitchOpen s = .next { s with rake := { s.rake with refSwitch := false } }) ∧
    (s.rake.refSwitch = true → s.rake.lastDir = some .pos → s.rake.leg = some .returning →
      s.rake.negLimit = true → s.rake.posLimit = true →
      exec .rakeSwitchOpen s = .next { s with
        rake := { s.rake with refSwitch := false, leg := none }
        mon := { s.mon with run := if s.mon.run = .home .rake then .none else s.mon.run } }) ∧
    (s.rake.refSwitch = true → s.rake.lastDir = some .pos → s.rake.leg = some .returning →
      s.rake.state = .tracking false → s.rake.negLimit = false ∨ s.rake.posLimit = false →
      exec .rakeSwitchOpen s = .next { s with rake := { s.rake with
        refSwitch := false, leg := some .turning, mode := some (.brake .normal), requester := some .positionUnit,
        state := .tracking false, timer := none, driveEnable := true, brakeRelease := true, pending := none } })

/-- R9, R10: a limit becoming ACTIVE where the V that the last tick left is 0 or points away from it, and a limit becoming INACTIVE,
change only the input; a limit becoming ACTIVE toward that V, outside a search before its preset, reports LIMIT with the axis, in
every axis state, FAULTED since that tick among them, and the axis is quick-stopped. -/
def Obligations.EndLimitsJudged : Prop :=
  ∀ (s : State) (x : Axis) (d : Dir), s.inReset = false →
    let s1 := s.setAxis x (match d with
      | .neg => { s.axis x with negLimit := true }
      | .pos => { s.axis x with posLimit := true })
    ((s.axis x).tickV = 0 ∨ (s.axis x).tickV.sign ≠ dirSign d → exec (.endLimitActive x d) s = .next s1) ∧
    (exec (.endLimitInactive x d) s = .next (s.setAxis x (match d with
      | .neg => { s.axis x with negLimit := false }
      | .pos => { s.axis x with posLimit := false }))) ∧
    ((s.axis x).limit d = false → (s.axis x).tickV.sign = dirSign d →
      (s.axis x).leg = none ∨ (s.axis x).leg = some .stopping →
      ∃ t, exec (.endLimitActive x d) s = .next t ∧ (t.axis x).limit d = true ∧ FaultKind.limit ∈ t.fault.held ∧
        (s.fault.record = none → ∃ q, t.fault.record = some q ∧ q.kind = .limit ∧
          q.fields = { axis := some x, zone := none, peer := none }) ∧
        (s.axis x).stoppedBy .quick (t.axis x) ∧ s1.stopsOnly t)

/-- R14, R16: in OUTBOUND the first limit toward the motion reports nothing and turns the leg to REVERSING under a brake at
A_quick; in REVERSING, RETURN, TURNING or DESCENT a limit toward the motion ends the search, reports HOME_FAIL and then LIMIT,
and ends the run. That the reversal's brake is taken also with the other limit ACTIVE already, where R11 refuses every motion
request, is log entry 12 (DEDUCED), and that a search goes by the V of the last tick, as R10 does, is entry 26 (DEDUCED). -/
def Obligations.SearchMeetsLimit : Prop :=
  ∀ (s : State) (x : Axis) (d : Dir), s.inReset = false → (s.axis x).limit d = false → (s.axis x).tickV ≠ 0 →
    (s.axis x).tickV.sign = dirSign d → (s.axis x).state = .tracking false →
    ((s.axis x).leg = some .outbound →
      exec (.endLimitActive x d) s = .next (s.setAxis x { (s.axis x).setLimit d true with
        leg := some .reversing, metLimit := true, mode := some (.brake .quick), requester := some .positionUnit,
        timer := none, driveEnable := true, brakeRelease := true, pending := none })) ∧
    ((s.axis x).leg ∈ [some .reversing, some .returning, some .turning, some .descent] →
      s.fault.record = none → s.fault.alsoSeen = [] →
      ∃ t q, exec (.endLimitActive x d) s = .next t ∧ (t.axis x).leg = none ∧ t.mon.run = .none ∧
        t.fault.record = some q ∧ q.kind = .homeFail ∧ q.fields = { axis := some x, zone := none, peer := none } ∧
        t.fault.alsoSeen = [.limit] ∧ (t.axis x).state = .stopping .quick ∧ (t.axis x).limit d = true ∧
        (t.axis x).referenced = (s.axis x).referenced ∧ (t.axis x).e = (s.axis x).e ∧ t.nv = s.nv ∧ t.comm = s.comm)

/-! ## The profile tick -/

/-- R36, R53, R55 to R60: a tick that finds both axes OFF or FAULTED sets P to E, F, V and the speed reference to 0 and the mode to
none, and writes the envelopes of axes that stand at E: the whole range without a record or for an UNREFERENCED slew, E ± M for
REFERENCED axes, the soft upper limit for an UNREFERENCED rake. It faults nothing, moves nothing and asks nothing. -/
def Obligations.TickAtRest : Prop :=
  ∀ (s : State), s.inReset = false → s.slew.atRest = true → s.rake.atRest = true →
    posMin ≤ s.slew.e → s.slew.e ≤ posMax → posMin ≤ s.rake.e → s.rake.e ≤ posMax →
    ∃ t, exec .profileTick s = .next t ∧
      t.slew = { s.slew with p := s.slew.e, f := 0, v := 0, tickV := 0, mode := none, requester := none, speedRef := 0 } ∧
      t.rake = { s.rake with p := s.rake.e, f := 0, v := 0, tickV := 0, mode := none, requester := none, speedRef := 0 } ∧
      t.env.travel = none ∧ t.env.velLeft = 0 ∧ t.env.approach = t.env.slew ∧
      t.env.slew = (match s.comm.record with
        | none => { lo := posMin, hi := posMax }
        | some r =>
          if s.slew.referenced then
            { lo := max posMin (s.slew.e - r.slew.margin), hi := min posMax (s.slew.e + r.slew.margin) }
          else { lo := posMin, hi := posMax }) ∧
      t.env.rakeHi = (match s.comm.record with
        | none => posMax
        | some r => if s.rake.referenced then min posMax (s.rake.e + r.rake.margin) else r.rake.softHi) ∧
      t.fault = s.fault ∧ t.seq = s.seq ∧ t.mon = s.mon ∧ t.peers = s.peers ∧ t.comm = s.comm ∧ t.nv = s.nv ∧
      t.store = s.store

/-- R25, R26, R29 to R33, R64, R68, R69: in a station without zones, an axis that runs in POSITION mode and does not arrive takes the
velocity of R25's table, one in VELOCITY mode that of R29's, one in BRAKE mode slows at its rate and one in STOPPING at the rate of
its order; each advances by it to a 65,536th of a count and gets the speed reference of R33 from the new position and velocity. A
brake that reaches V = 0 in REVERSING turns the search to RETURN (R14, R30). With a zone map, a rake in VELOCITY mode takes that
candidate exactly while its envelope stays under every ceiling that the slew's current envelope touches, and otherwise slows at
A. -/
def Obligations.TickMoves : Prop :=
  ∀ (s : State) (x : Axis) (r : Record), s.inReset = false → s.comm.record = some r →
    let a := s.axis x
    let par := r.axis x
    let at_ (v' : Int) : Int := a.p * 65536 + a.f + v'
    let inRange (v' : Int) : Prop := posMin ≤ at_ v' / 65536 ∧ at_ v' / 65536 ≤ posMax
    let moved (t : State) (v' : Int) : Prop :=
      (t.axis x).v = v' ∧ (t.axis x).tickV = v' ∧ (t.axis x).p = at_ v' / 65536 ∧ (t.axis x).f = at_ v' % 65536 ∧
        (t.axis x).speedRef = max (-1000) (min 1000 (nearest (v' * 1000) par.vrated +
          Int.tdiv ((at_ v' / 65536 - a.e) * par.kp) 16)) ∧
        (t.axis x).e = a.e ∧ t.nv = s.nv ∧ t.comm = s.comm
    let calm (v' : Int) : Prop :=
      (s.axis (otherAxis x)).atRest = true ∧ (at_ v' / 65536 - a.e).natAbs ≤ par.followLimit
    let slowed (rate : Nat) : Int := a.v.sign * (a.v.natAbs - rate : Nat)
    let toward (d : Dir) (vseg : Nat) : Int :=
      if a.v ≠ 0 ∧ a.v.sign ≠ dirSign d then slowed par.a
      else dirSign d * (if a.v.natAbs < vseg then min (a.v.natAbs + par.a) vseg
        else if vseg < a.v.natAbs then max (a.v.natAbs - par.a) vseg else a.v.natAbs : Nat)
    (∀ target vseg, s.zones.rows = [] → a.state = .tracking false → a.mode = some (.position target vseg) →
      let d : Int := target - a.p
      let v' := tableCandidate par.a par.vcreep vseg d a.v
      ¬ (d = 0 ∧ a.v.natAbs ≤ par.a) → (d ≠ 0 → 0 < (target * 65536 - at_ v') * d.sign) → inRange v' →
      ∃ t, exec .profileTick s = .next t ∧ moved t v') ∧
    (∀ d vseg, s.zones.rows = [] → a.state = .tracking false → a.mode = some (.velocity d vseg) →
      inRange (toward d vseg) →
      ∃ t, exec .profileTick s = .next t ∧ moved t (toward d vseg) ∧
        (calm (toward d vseg) → (t.axis x).mode = a.mode ∧ (t.axis x).state = .tracking false)) ∧
    (∀ k, s.zones.rows = [] → a.state = .tracking false → a.mode = some (.brake k) →
      let v' := slowed (match k with | .normal => par.a | .quick => par.aQuick)
      inRange v' →
      ∃ t, exec .profileTick s = .next t ∧ moved t v' ∧
        (calm v' → (t.axis x).state = .tracking false ∧ (v' ≠ 0 → (t.axis x).mode = a.mode) ∧
          (v' = 0 → a.requester ≠ some .positionUnit → (t.axis x).mode = none) ∧
          (v' = 0 → a.requester = some .positionUnit → a.leg = some .reversing →
            a.limit (dirOpposite (s.searchDir x)) = false → a.negLimit = false ∨ a.posLimit = false →
            (t.axis x).leg = some .returning ∧ (t.axis x).mode = some (.velocity (dirOpposite (s.searchDir x))
              (max par.vcreep (min par.vmax par.vhome)))))) ∧
    (∀ k, s.zones.rows = [] → a.state = .stopping k →
      let v' := slowed (match k with | .controlled => par.a | .quick => par.aQuick)
      inRange v' → v' ≠ 0 → a.mode = none →
      ∃ t, exec .profileTick s = .next t ∧ moved t v' ∧ (calm v' → (t.axis x).state = .stopping k)) ∧
    (∀ d vseg, x = .rake → a.state = .tracking false → a.mode = some (.velocity d vseg) → inRange (toward d vseg) →
      inRange (slowed par.a) →
      let ceilings : List Int := s.zones.rows.filterMap (fun g =>
        if s.env.slew.lo ≤ g.zone.hi ∧ g.zone.lo ≤ s.env.slew.hi then g.zone.ceiling else none)
      let hi : Int := s.rakeHiOf (a.advanceBy (toward d vseg))
      ((∀ c ∈ ceilings, hi ≤ c) → ∃ t, exec .profileTick s = .next t ∧ moved t (toward d vseg)) ∧
      ((∃ c ∈ ceilings, c < hi) → ∃ t, exec .profileTick s = .next t ∧ moved t (slowed par.a)))

/-- R70, the law of the slew envelope: a tick that leaves the slew moving under the profile leaves every zone that its current
envelope touches HELD, unless ENVELOPE_BREACH is latched. -/
def Obligations.LawOfSlewEnvelope : Prop :=
  ∀ (s t : State) (r : Record), s.inReset = false → s.comm.record = some r → s.slew.state.profiled = true →
    exec .profileTick s = .next t → t.slew.v ≠ 0 →
    ∀ g ∈ t.zones.rows, t.env.slew.lo ≤ g.zone.hi → g.zone.lo ≤ t.env.slew.hi →
      g.guard = .held ∨ FaultKind.envelopeBreach ∈ t.fault.held

/-- R69, R73: a slew that stands in TRACKING with a POSITION move asked for does not begin it while the first step's envelope
would touch a zone that is not HELD: it stays at rest where it is, with the move still in force and no fault. -/
def Obligations.SlewWaitsForZone : Prop :=
  ∀ (s : State) (r : Record) (target : Int) (vseg : Nat) (g : GuardRow), s.inReset = false → s.comm.record = some r →
    s.rake.atRest = true → s.slew.state = .tracking false → s.slew.mode = some (.position target vseg) →
    s.slew.referenced = true → s.slew.v = 0 → s.slew.f = 0 → target ≠ s.slew.p → posMin ≤ s.slew.p → s.slew.p ≤ posMax →
    (s.slew.p - s.slew.e).natAbs ≤ r.slew.followLimit → g ∈ s.zones.rows → g.guard ≠ .held →
    (s.slewRangeOf (s.slew.advanceBy (tableCandidate r.slew.a r.slew.vcreep vseg (target - s.slew.p) 0))).touches g.zone →
    tableCandidate r.slew.a r.slew.vcreep vseg (target - s.slew.p) 0 ≠ 0 →
    ∃ t, exec .profileTick s = .next t ∧ t.slew.p = s.slew.p ∧ t.slew.f = 0 ∧ t.slew.v = 0 ∧
      t.slew.mode = some (.position target vseg) ∧ t.slew.state = .tracking false ∧ t.fault = s.fault ∧
      t.env.velLeft = 0

/-- R27, R32, R44: a POSITION move that reaches its target ends there at rest, in TRACKING with the hold running and the mode
none, and ends the jog that asked for it; the sequencer counts its own as ARRIVED, and MOVING ends in DWELL with it, or goes on
with the HELD_BACK axis (R129), which in PAUSED waits (R134). A stop that reaches V = 0 ends the same way: it ends a search in
STOPPING with its run (R17), and a request that waited for it is taken at once (R47). In a station without zones, the other axis
at rest. -/
def Obligations.MoveAndStopEndInHold : Prop :=
  ∀ (s : State) (x : Axis) (r : Record) (target : Int) (vseg : Nat) (d : Dir) (m : JogMode) (k : StopKind),
    s.inReset = false → s.comm.record = some r → s.zones.rows = [] → (s.axis (otherAxis x)).atRest = true →
    0 < (r.axis x).holdTime →
    let a := s.axis x
    let o := s.axis (otherAxis x)
    let par := r.axis x
    let held (t : State) : Prop :=
      (t.axis x).state = .tracking true ∧ (t.axis x).timer = some par.holdTime ∧ (t.axis x).v = 0 ∧ (t.axis x).tickV = 0 ∧
        (t.axis x).mode = none ∧ (t.axis x).requester = none ∧ (t.axis x).driveEnable = true ∧
        (t.axis x).brakeRelease = true
    let otherStarts : Prop := (s.currentStep.pair (otherAxis x)).isSome = true ∧ o.state = .off ∧ o.ready = false ∧
      s.comm.restartPending = false ∧ o.negLimit = false ∧ o.posLimit = false
    let arrives : Prop := a.state = .tracking false ∧ a.mode = some (.position target vseg) ∧ posMin ≤ target ∧
      target ≤ posMax ∧ target ≠ a.p ∧ (target - a.e).natAbs ≤ par.followLimit ∧
      (target * 65536 - (a.p * 65536 + a.f + tableCandidate par.a par.vcreep vseg (target - a.p) a.v)) *
        (target - a.p).sign ≤ 0
    let stops : Prop := a.state = .stopping k ∧ a.mode = none ∧
      a.v.natAbs ≤ (match k with | .controlled => par.a | .quick => par.aQuick) ∧ 0 ≤ a.f ∧ a.f < 65536 ∧
      posMin ≤ a.p ∧ a.p ≤ posMax ∧ (a.p - a.e).natAbs ≤ par.followLimit
    (arrives → a.requester = some .enableMonitor → s.mon.run = .jog x d m →
      ∃ t, exec .profileTick s = .next t ∧ held t ∧ (t.axis x).p = target ∧ (t.axis x).f = 0 ∧ t.mon.run = .none ∧
        t.fault = s.fault) ∧
    (arrives → a.requester = some .sequencer → s.seq.move x = .requested → s.seq.phase = .moving →
      s.seq.state = .paused ∨ s.seq.state = .running ∧ 0 < s.currentStep.dwell.getD 0 →
      (s.seq.state = .running → s.seq.move (otherAxis x) = .heldBack → otherStarts) →
      ∃ t, exec .profileTick s = .next t ∧ held t ∧ (t.axis x).p = target ∧ (t.axis x).f = 0 ∧ t.mon = s.mon ∧
        t.seq.state = s.seq.state ∧ t.seq.step = s.seq.step ∧ t.seq.move x = .arrived ∧
        (s.seq.state = .paused → t.seq.phase = .moving ∧ t.seq.move (otherAxis x) = s.seq.move (otherAxis x)) ∧
        (s.seq.state = .running → s.seq.move (otherAxis x) = .requested ∨ s.seq.move (otherAxis x) = .interrupted →
          t.seq.phase = .moving ∧ t.seq.move (otherAxis x) = s.seq.move (otherAxis x)) ∧
        (s.seq.state = .running → s.seq.move (otherAxis x) = .none ∨ s.seq.move (otherAxis x) = .arrived →
          t.seq.phase = .dwell ∧ t.seq.dwellElapsed = 0 ∧ t.seq.stepElapsed = s.seq.stepElapsed ∧ t.fault = s.fault) ∧
        (s.seq.state = .running → s.seq.move (otherAxis x) = .heldBack →
          t.seq.phase = .moving ∧ t.seq.move (otherAxis x) = .requested ∧
            (t.axis (otherAxis x)).state = .starting .awaitReady ∧
            (t.axis (otherAxis x)).pending.map (·.asker) = some .sequencer)) ∧
    (stops → a.pending = none → a.leg = some .stopping → s.mon.run = .home x →
      ∃ t, exec .profileTick s = .next t ∧ held t ∧ (t.axis x).p = a.p ∧ (t.axis x).f = a.f ∧ (t.axis x).leg = none ∧
        (t.axis x).referenced = a.referenced ∧ t.mon.run = .none ∧ t.fault = s.fault) ∧
    (stops → a.pending = none → a.leg = none →
      ∃ t, exec .profileTick s = .next t ∧ held t ∧ (t.axis x).p = a.p ∧ (t.axis x).f = a.f ∧ t.mon = s.mon ∧
        t.seq = s.seq ∧ t.fault = s.fault) ∧
    (∀ q, stops → a.pending = some q → a.leg = none → a.negLimit = false → a.posLimit = false →
      ∃ t, exec .profileTick s = .next t ∧ (t.axis x).state = .tracking false ∧ (t.axis x).timer = none ∧
        (t.axis x).mode = some q.goal ∧ (t.axis x).requester = some q.asker ∧ (t.axis x).pending = none ∧
        (t.axis x).p = a.p ∧ (t.axis x).f = a.f ∧ (t.axis x).v = 0 ∧ (t.axis x).tickV = 0 ∧ (t.axis x).driveEnable = true ∧
        (t.axis x).brakeRelease = true ∧ t.mon = s.mon ∧ t.seq = s.seq ∧ t.fault = s.fault)

/-- R83 to R87, R90, R92, R93, R95: after a tick every row's need is, for a REFERENCED slew, TRAVEL where the approach envelope
reaches it under a requested travel, REHOLD where the slew stands in it, and none otherwise; for an UNREFERENCED slew with a motion
request TRAVEL under a requested travel and REHOLD otherwise, and without one none. A HELD row stays HELD exactly while one of the
two slew envelopes touches it, or, UNREFERENCED, while the slew has a motion request, and otherwise is FREE; a row that is not HELD
and has no need is FREE; a CLAIMING row with a need goes on. In OPERATIONAL with no row CLAIMING, the first candidate in the order
of R86 claims for 100 ms with its waited flag kept when its peers are FRESH and show NONE, and waits when one is not FRESH; every
other candidate stands as it was. -/
def Obligations.TickJudgesRows : Prop :=
  ∀ (s : State) (r : Record) (i : Nat) (g : GuardRow), s.inReset = false → s.comm.record = some r →
    s.zones.rows[i]? = some g →
    let moves : Bool := match s.slew.state with
      | .starting _ => true
      | .tracking _ => true
      | .stopping _ => true
      | .settling => s.slew.pending.isSome
      | .off => false
      | .faulted => false
    let need (t : State) (h : GuardRow) : Need :=
      if s.slew.referenced = true then
        if t.env.travel.isSome ∧ t.env.approach.touches h.zone then .travel
        else if t.env.velLeft = 0 ∧ t.env.slew.touches h.zone then .rehold else .none
      else if moves = true then (if t.env.travel.isSome then .travel else .rehold) else .none
    let keeps (t : State) (h : GuardRow) : Prop :=
      if s.slew.referenced = true then t.env.slew.touches h.zone = true ∨ t.env.approach.touches h.zone = true
      else moves = true
    let wants (t : State) (h : GuardRow) : Prop := need t h ≠ .none ∧ (h.guard = .free ∨ h.guard = .waiting)
    let before (t : State) (j : Nat) (h : GuardRow) (k : Nat) (h' : GuardRow) : Prop :=
      match t.env.travel, s.slew.referenced with
      | some { dir := .pos, .. }, true => h.zone.lo < h'.zone.lo ∨ (h.zone.lo = h'.zone.lo ∧ j < k)
      | some { dir := .neg, .. }, true => h'.zone.hi < h.zone.hi ∨ (h.zone.hi = h'.zone.hi ∧ j < k)
      | _, _ => j < k
    let notFresh (pr : Nat) : Prop := ∀ o, findPeer s.peers pr = some o → o.freshness ≠ .fresh
    ∃ t g', exec .profileTick s = .next t ∧ t.zones.rows[i]? = some g' ∧ g'.zone = g.zone ∧ g'.need = need t g ∧
      (g.guard = .held → keeps t g → g'.guard = .held) ∧
      (g.guard = .held → ¬ keeps t g → g'.guard = .free ∧ g'.waited = false) ∧
      (g.guard ≠ .held → need t g = .none → g'.guard = .free) ∧
      (g.guard = .claiming → need t g ≠ .none → g'.guard = .claiming ∧ g'.window = g.window) ∧
      (wants t g → s.comm.mode = .operational → (∀ h ∈ s.zones.rows, h.guard = .claiming → need t h = .none) →
        (∀ j h, s.zones.rows[j]? = some h → wants t h → j ≠ i → before t i g j h) →
        ((∀ pr ∈ g.zone.peers, ∃ o st e, findPeer s.peers pr = some o ∧ o.freshness = .fresh ∧ o.status = some st ∧
            st.mode = 2 ∧ st.zones.find? (fun e => decide (e.zone = g.zone.number)) = some e ∧ e.adv = .none) →
          g'.guard = .claiming ∧ g'.window = some 100 ∧ g'.waited = g.waited) ∧
        ((∃ pr ∈ g.zone.peers, notFresh pr) → g'.guard = .waiting ∧ g'.waited = true ∧ g'.window = none)) ∧
      (wants t g → (s.comm.mode ≠ .operational ∨ (∃ h ∈ s.zones.rows, h.guard = .claiming ∧ need t h ≠ .none) ∨
          ∃ j h, s.zones.rows[j]? = some h ∧ wants t h ∧ before t j h i g) →
        g'.guard = g.guard ∧ g'.waited = g.waited ∧ g'.window = g.window)

/-! ## Requests and the drive handshake -/

/-- R21 to R23, R40, R43, R45, R47, R49, R11: a motion request, with speed and target clamped. One that is not refused starts the
handshake out of OFF, waits in STARTING, STOPPING and SETTLING, is taken at once in TRACKING with the hold stopped, and leaves
a FAULTED axis as it is. A request toward an ACTIVE limit, a POSITION request by the sign of T − P and a VELOCITY request by its
direction, is refused: the axis is unchanged, the run of the enable monitor ends, and a script step's reports LIMIT with the axis
and ends the conversion; with both limits ACTIVE every request is refused but the reversal's brake (log entry 12). With a restart pending a request begins no motion out of OFF (R180; that it is dropped is log entry 10). -/
def Obligations.RequestTaken : Prop :=
  ∀ (s : State) (x : Axis) (r : Request),
    let a := s.axis x
    let par := s.params x
    let speed (v : Nat) : Nat := max par.vcreep (min par.vmax v)
    let target (t : Int) : Int := if a.referenced then max par.softLo (min par.softHi t) else t
    let r' : Request := { r with goal := match r.goal with
      | .position t v => .position (target t) (speed v)
      | .velocity d v => .velocity d (speed v)
      | .brake k => .brake k }
    let s1 : State := match r.goal with
      | .position t _ => if target t = t then s else { s with fault := { s.fault with notice := some .targetLimited } }
      | .velocity _ _ => s
      | .brake _ => s
    let toward (d : Dir) : Prop := match r'.goal with
      | .position t _ => (t - a.p).sign = dirSign d
      | .velocity e _ => e = d
      | .brake _ => False
    let refused : Prop := (a.negLimit = true ∧ a.posLimit = true ∧ r.goal ≠ .brake .quick) ∨
      ∃ d, toward d ∧ a.limit d = true
    (¬ refused →
      (a.state = .off → s.comm.restartPending = true → s.request x r = s1) ∧
      (a.state = .off → a.ready = false → s.comm.restartPending = false → s.request x r = s1.setAxis x { a with
        p := a.e, f := 0, pending := some r', state := .starting .awaitReady, timer := some 500, driveEnable := true,
        brakeRelease := false }) ∧
      ((∃ l, a.state = .starting l) ∨ (∃ k, a.state = .stopping k) ∨ a.state = .settling →
        s.request x r = s1.setAxis x { a with pending := some r' }) ∧
      ((∃ h, a.state = .tracking h) → s.request x r = s1.setAxis x { a with
        state := .tracking false, timer := none, driveEnable := true, brakeRelease := true, mode := some r'.goal,
        requester := some r.asker, pending := none }) ∧
      (a.state = .faulted → r.asker = .enableMonitor → ∃ m, s.request x r = { s1 with mon := m } ∧
        (∀ d k, s.mon.run = .jog x d k → m.run = .none))) ∧
    (refused →
      (r.asker = .enableMonitor → ∃ m, s.request x r = { s1 with mon := m } ∧
        (∀ e k, s.mon.run = .jog x e k → m.run = .none)) ∧
      (r.asker = .sequencer → FaultKind.limit ∈ (s.request x r).fault.held ∧
        a.stoppedBy .quick ((s.request x r).axis x) ∧ s.seq.endedFrom (s.request x r).seq ∧
        (s.fault.record = none → ∃ q, (s.request x r).fault.record = some q ∧ q.kind = .limit ∧
          q.fields = { axis := some x, zone := none, peer := none })))

/-- R41, R34: drive-ready becoming active in AWAIT_READY turns the brake-release output on and starts the brake release time, and
with a release time of 0 the request is taken at once; in any other state only the input changes. The PWM output takes the
reference last computed. -/
def Obligations.DriveReadyTaken : Prop :=
  ∀ (s : State) (x : Axis) (r : Request), s.inReset = false →
    (exec (.pwmPeriodStart x) s = .next (s.setAxis x { s.axis x with pwm := (s.axis x).speedRef })) ∧
    ((s.axis x).ready = false →
      ((s.axis x).state = .starting .awaitReady → 0 < (s.params x).releaseTime →
        exec (.driveReadyActive x) s = .next (s.setAxis x { s.axis x with
          ready := true, state := .starting .releasing, timer := some (s.params x).releaseTime, driveEnable := true,
          brakeRelease := true })) ∧
      ((s.axis x).state = .starting .awaitReady → (s.params x).releaseTime = 0 → (s.axis x).pending = some r →
        (s.axis x).negLimit = false → (s.axis x).posLimit = false →
        exec (.driveReadyActive x) s = .next (s.setAxis x { s.axis x with
          ready := true, state := .tracking false, timer := none, driveEnable := true, brakeRelease := true,
          mode := some r.goal, requester := some r.asker, pending := none })) ∧
      ((s.axis x).state ≠ .starting .awaitReady →
        exec (.driveReadyActive x) s = .next (s.setAxis x { s.axis x with ready := true })))

/-- R42: the end of the brake release time takes the pending request in TRACKING, with P, F and V kept; a VELOCITY request that the
lock refuses by now is dropped and the axis is in SETTLING. -/
def Obligations.BrakeReleaseEnds : Prop :=
  ∀ (s : State) (x : Axis) (r : Request), s.inReset = false → (s.axis x).state = .starting .releasing →
    (s.axis x).pending = some r →
    ((s.axis x).negLimit = false → (s.axis x).posLimit = false →
      exec (.brakeReleaseExpiry x) s = .next (s.setAxis x { s.axis x with
        state := .tracking false, timer := none, driveEnable := true, brakeRelease := true, mode := some r.goal,
        requester := some r.asker, pending := none })) ∧
    (∀ d v, r.goal = .velocity d v → (s.axis x).limit d = true → 0 < (s.params x).setTime →
      ∃ t, exec (.brakeReleaseExpiry x) s = .next t ∧ (t.axis x).state = .settling ∧
        (t.axis x).timer = some (s.params x).setTime ∧ (t.axis x).driveEnable = true ∧
        (t.axis x).brakeRelease = false ∧ (t.axis x).speedRef = 0 ∧ (t.axis x).v = 0 ∧
        (t.axis x).p = (s.axis x).p ∧ (t.axis x).pending = none ∧ s.stopsOnly t ∧
        (r.asker = .sequencer → FaultKind.limit ∈ t.fault.held) ∧
        (r.asker ≠ .sequencer → t.fault = s.fault ∧ t.axis (otherAxis x) = s.axis (otherAxis x)))

/-- R46, R36, R47: the end of the hold applies the brake with the drive still enabled, P kept; a brake set time of 0 gives OFF at
once. The end of the set time gives OFF with P at E, and a request that waited starts the handshake again. -/
def Obligations.HoldAndBrakeSet : Prop :=
  ∀ (s : State) (x : Axis) (r : Request), s.inReset = false →
    let a := s.axis x
    let off : AxisUnit := { a with
      p := a.e, f := 0, v := 0, mode := none, requester := none, state := .off, timer := none, driveEnable := false,
      brakeRelease := false, speedRef := 0 }
    (a.state = .tracking true → 0 < (s.params x).setTime →
      exec (.holdExpiry x) s = .next (s.setAxis x { a with
        state := .settling, timer := some (s.params x).setTime, driveEnable := true, brakeRelease := false,
        speedRef := 0, v := 0, mode := none, requester := none })) ∧
    (a.state = .tracking true → (s.params x).setTime = 0 → a.pending = none →
      exec (.holdExpiry x) s = .next (s.setAxis x off)) ∧
    (a.state = .settling → a.pending = none → exec (.brakeSetExpiry x) s = .next (s.setAxis x off)) ∧
    (a.state = .settling → a.pending = some r → a.ready = false → s.comm.restartPending = false → a.negLimit = false →
      a.posLimit = false →
      clampGoal (s.params x) a.referenced r.goal = r.goal →
      exec (.brakeSetExpiry x) s = .next (s.setAxis x { off with
        state := .starting .awaitReady, timer := some 500, driveEnable := true, pending := some r }))

/-- R41, R50, R51, R52: the ready limit in AWAIT_READY, and drive-ready becoming inactive in RELEASING, TRACKING, STOPPING or
SETTLING, put the axis into FAULTED and report DRIVE with it, the V that a limit meets (R10) staying as the last tick left it, the
other axis taking the quick stop; the local stop chain opening puts both axes into FAULTED and reports E_STOP; its closing changes
the input alone, and so does a loss of ready in OFF, AWAIT_READY or FAULTED. -/
def Obligations.DriveAndChainFault : Prop :=
  ∀ (s : State) (x : Axis), s.inReset = false →
    let reported (t : State) (k : FaultKind) (ax : Option Axis) : Prop :=
      k ∈ t.fault.held ∧ (s.fault.record = none → ∃ r, t.fault.record = some r ∧ r.kind = k ∧
        r.fields = { axis := ax, zone := none, peer := none })
    let s1 := s.setAxis x { s.axis x with ready := false }
    ((s.axis x).state = .starting .awaitReady →
      ∃ t, exec (.readyLimitExpiry x) s = .next t ∧ (s.axis x).faultedAt (t.axis x) ∧ reported t .drive (some x) ∧
        (s.axis (otherAxis x)).stoppedBy .quick (t.axis (otherAxis x)) ∧ s.stopsOnly t) ∧
    ((s.axis x).ready = true → (s.axis x).state.releases = true ∨ (s.axis x).state = .settling →
      ∃ t, exec (.driveLoss x) s = .next t ∧ (s.axis x).faultedAt (t.axis x) ∧ reported t .drive (some x) ∧
        (s.axis (otherAxis x)).stoppedBy .quick (t.axis (otherAxis x)) ∧ s1.stopsOnly t) ∧
    ((s.axis x).state = .off ∨ (s.axis x).state = .starting .awaitReady ∨ (s.axis x).state = .faulted →
      exec (.driveLoss x) s = .next s1) ∧
    (s.chainOpen = false →
      ∃ t, exec .localStopChainOpen s = .next t ∧ s.slew.faultedAt t.slew ∧ s.rake.faultedAt t.rake ∧
        reported t .eStop none ∧ ({ s with chainOpen := true } : State).stopsOnly t) ∧
    (exec .localStopChainClose s = .next { s with chainOpen := false })

/-! ## Faults, the STOP frame and the STOP line -/

/-- R167 to R170: a report fills an empty record with its fields, the counts and the place of the sequencer, and otherwise adds its
kind to the kinds held; the STOP line is driven exactly while a STOP_ALL kind is held, and sensed ASSERTED with it (R175; log
entry 8); both axes are quick-stopped, a conversion is ended, an ARMED one with REFUSED_FAULT, its script peers are dropped (R107)
and its zone wait judged (R99), and any run is over. A kind not held before sets the status pending flag in every mode (R160), and
the silence timer stays as it is in the modes that send nothing (R166). Nothing else but the bus changes, unless the kind is
DUPLICATE_STATION. -/
def Obligations.ReportTaken : Prop :=
  ∀ (s : State) (k : FaultKind) (fields : FaultFields), s.lineDriveOk →
    let t := s.report k fields
    (t.fault.record = match s.fault.record with
      | some r => some r
      | none => some { kind := k, fields := fields, slewE := s.slew.e, rakeE := s.rake.e
                       place := if s.seq.state = .armed then some (s.seq.layout, 0)
                         else if s.seq.converting then some (s.seq.layout, s.seq.step) else none }) ∧
    (∀ j, j ∈ t.fault.held ↔ j = k ∨ j ∈ s.fault.held) ∧ t.lineDriveOk ∧
    t.fault.sentSinceSilence = (s.fault.sentSinceSilence && !decide (k = .busSilent)) ∧
    t.fault.notice = s.fault.notice ∧ t.fault.lineAsserted = (s.fault.lineAsserted || t.fault.drivesStop) ∧
    s.slew.stoppedBy .quick t.slew ∧ s.rake.stoppedBy .quick t.rake ∧ s.seq.endedFrom t.seq ∧ t.mon = { s.mon with run := .none } ∧
    t.peers = (if s.seq.state.atEase then s.peers
      else (s.peers.filter (·.zoneRole)).map (fun r => { r with scriptRole := false })) ∧
    (k ≠ .duplicateStation → t.zones.waitElapsed =
      if s.seq.converting = true ∧ ¬ ∃ g ∈ s.zones.rows, g.need = .travel ∧ (g.guard = .claiming ∨ g.guard = .waiting) then 0
      else s.zones.waitElapsed) ∧
    (∀ c n, s.seq.state = .armed → s.seq.armed = some (c, n) →
      t.bus.outcome = some { console := c, tag := n, outcome := .refusedFault }) ∧
    (s.seq.state ≠ .armed → t.bus.outcome = s.bus.outcome) ∧
    (k ≠ .duplicateStation → s.stopsOnly t ∧ (k ∉ s.fault.held → t.bus.statusPending = true) ∧
      (s.sends = false → t.bus.silence = s.bus.silence)) ∧
    (k = .duplicateStation → t.comm.mode = .isolated)

/-- R163, R175: a STOP frame from any station takes a controlled stop of both axes, ends the conversion without an outcome and ends
any run, and latches nothing; the STOP line becoming ASSERTED in OPERATIONAL takes a quick stop, and an ARMED conversion gets
REFUSED_STOP_LINE; its becoming RELEASED, and any change of it in another mode, changes the sensed level alone. A line that this
station drives is not RELEASED (R170). -/
def Obligations.StopsTaken : Prop :=
  ∀ (s : State) (snd : Sender),
    let line (u : State) (b : Bool) : State := { u with fault := { u.fault with lineAsserted := b } }
    (s.hears snd → ∃ t, exec (.stopFrame snd) s = .next t ∧ s.slew.stoppedBy .controlled t.slew ∧
      s.rake.stoppedBy .controlled t.rake ∧ s.seq.endedFrom t.seq ∧ t.mon = { s.mon with run := .none } ∧
      t.fault = s.fault ∧ t.bus.outcome = s.bus.outcome ∧ s.stopsOnly t) ∧
    (s.inReset = false → s.comm.mode = .operational → s.fault.lineAsserted = false →
      ∃ t, exec .stopLineAsserted s = .next t ∧ s.slew.stoppedBy .quick t.slew ∧ s.rake.stoppedBy .quick t.rake ∧
        s.seq.endedFrom t.seq ∧ t.mon = { s.mon with run := .none } ∧ t.fault = (line s true).fault ∧ s.stopsOnly t ∧
        (∀ c n, s.seq.state = .armed → s.seq.armed = some (c, n) →
          t.bus.outcome = some { console := c, tag := n, outcome := .refusedStopLine })) ∧
    (s.inReset = false → s.comm.mode ≠ .operational ∨ s.fault.lineAsserted = true →
      exec .stopLineAsserted s = .next (line s true)) ∧
    (s.inReset = false → s.fault.drivesStop = false → exec .stopLineReleased s = .next (line s false)) ∧
    (s.inReset = false → s.fault.drivesStop = true → exec .stopLineReleased s = .next s)

/-! ## The peer view and the zone guard -/

/-- R108 to R110, R88, R97: a status from a station without a record changes the receiver alone; one for a held record replaces every
status field, makes it FRESH and restarts its age, the other records standing as they were; a neighbour that shows HELD for a
shared zone withdraws the claim that stands CLAIMING, and against a HELD row is a ZONE_CONFLICT, with the row kept. R127, R128,
R137: in RUNNING and PAUSED the status of a script peer that says ABORTED for the layout aborts the conversion, with the notice
PEER_ABORTED and a controlled stop of each REQUESTED axis; any other sets the flag of each condition that it meets; and in RUNNING
the last condition met ends WAIT_PEERS, a step with a slew target asking the slew, which in OFF starts its handshake. -/
def Obligations.StatusHeard : Prop :=
  ∀ (s : State) (snd : Sender) (p : StatusPayload) (r : PeerRecord), s.hears snd → p.zones.length ≤ 4 →
    let n := snd.station.toNat
    let row : Instr := .statusFrame snd p
    let shown (st : PeerStatus) : Prop := st.mode = p.mode.toNat ∧ st.slewRef = p.flags.getLsbD 0 ∧
      st.rakeRef = p.flags.getLsbD 1 ∧ st.stopSeen = p.flags.getLsbD 2 ∧ st.seqState = p.seqState.toNat ∧
      st.phase = p.phase.toNat ∧ st.layout = p.layout.toNat ∧ st.step = p.step.toNat ∧ st.slewE = p.slewE.toInt ∧
      st.slewLo = p.slewLo.toInt ∧ st.slewHi = p.slewHi.toInt ∧ st.rakeE = p.rakeE.toInt ∧
      st.rakeHi = p.rakeHi.toInt ∧ st.zones = p.zones.map (fun z => {
        zone := z.1.toNat, mark := z.2.getLsbD 3, waited := z.2.getLsbD 2
        adv := match z.2.toNat % 4 with | 0 => .none | 1 => .claim | 2 => .held | _ => .block }) ∧
      st.faultKind = p.fault.toNat % 128 ∧ st.alsoSeen = p.fault.getLsbD 7
    let heardBy (st : PeerStatus) : List PeerRecord := s.peers.map (fun o =>
      if o.station = n then { o with freshness := .fresh, age := some 0, status := some st } else o)
    let aborts : Prop := p.seqState = 5 ∧ p.layout.toNat = s.seq.layout
    let meets (c : Nat × Nat) : Prop := c.1 = n ∧ p.layout.toNat = s.seq.layout ∧
      (c.2 < p.step.toNat ∨ (p.step.toNat = c.2 ∧ p.phase = 4) ∨ p.seqState = 4)
    let stop (x : Axis) (t : State) : Prop :=
      if s.seq.move x = .requested then (s.axis x).stoppedBy .controlled (t.axis x) else t.axis x = s.axis x
    (findPeer s.peers n = none → exec row s = .next (s.heard row.frame)) ∧
    (findPeer s.peers n = some r → r.zoneRole = true ∨ s.seq.converting = false →
      ∃ t q st, exec row s = .next t ∧ q ∈ t.peers ∧ q.station = n ∧ q.zoneRole = r.zoneRole ∧ q.freshness = .fresh ∧
        q.age = some 0 ∧ q.status = some st ∧ shown st ∧
        (s.seq.state.atEase = true → t.peers = heardBy st) ∧
        t.env = s.env ∧ t.nv = s.nv ∧ t.comm = s.comm ∧ t.store = s.store) ∧
    (∀ (i : Nat) (g : GuardRow) (z : Byte × Byte), findPeer s.peers n = some r → r.zoneRole = true →
      s.zones.rows[i]? = some g → n ∈ g.zone.peers →
      p.mode = 2 → p.zones.find? (fun e => decide (e.1.toNat = g.zone.number)) = some z → z.2.extractLsb' 0 2 = 2#2 →
      ∃ t g', exec row s = .next t ∧ t.zones.rows[i]? = some g' ∧ g'.zone = g.zone ∧
        (g.guard = .claiming → g'.guard = .waiting ∧ g'.waited = true ∧ g'.window = none) ∧
        (g.guard = .held → g'.guard = .held ∧ FaultKind.zoneConflict ∈ t.fault.held)) ∧
    (findPeer s.peers n = some r → r.scriptRole = true → s.seq.converting = true → aborts →
      ∃ t, exec row s = .next t ∧ s.seq.endedFrom t.seq ∧ (∀ o ∈ t.peers, o.scriptRole = false) ∧ t.comm = s.comm ∧
        t.nv = s.nv ∧ t.env = s.env ∧ t.store = s.store ∧
        (r.zoneRole = false → t.fault = { s.fault with notice := some .peerAborted } ∧ stop .slew t ∧ stop .rake t ∧
          t.mon.present = s.mon.present ∧ s.stopsOnly t ∧ ∃ st, shown st ∧
          t.peers = ((heardBy st).filter (·.zoneRole)).map (fun o => { o with scriptRole := false }))) ∧
    (findPeer s.peers n = some r → r.scriptRole = true → r.zoneRole = false → s.seq.converting = true → ¬ aborts →
      (s.seq.state = .paused ∨ (s.seq.phase = .waitPeers ∧
          ∃ (i : Nat) (c : Nat × Nat), s.currentStep.conds[i]? = some c ∧ s.seq.met[i]? = some false ∧ ¬ meets c) →
        ∃ q st, exec row s = .next { s.heard row.frame with peers := heardBy st, seq := { s.seq with met := q } } ∧
          shown st ∧ ∀ (i : Nat) (c : Nat × Nat), s.currentStep.conds[i]? = some c →
            (s.seq.met[i]? = some true → q[i]? = some true) ∧
            (s.seq.met[i]? = some false → meets c → q[i]? = some true) ∧
            (s.seq.met[i]? = some false → ¬ meets c → q[i]? = some false)) ∧
      (∀ target v, s.seq.state = .running → s.seq.phase = .waitPeers →
        (∀ (i : Nat) (c : Nat × Nat), s.currentStep.conds[i]? = some c → s.seq.met[i]? = some true ∨ meets c) →
        s.currentStep.slew = some (target, v) → s.currentStep.rake = none → s.slew.state = .off → s.slew.ready = false →
        s.comm.restartPending = false → s.slew.negLimit = false → s.slew.posLimit = false →
        (s.slew.referenced = true → s.slewSoft.1 ≤ target ∧ target ≤ s.slewSoft.2) →
        ∃ q st b, exec row s = .next { s with
            peers := heardBy st, bus := b
            seq := { s.seq with met := q, phase := .moving, slewMove := .requested }
            slew := { s.slew with
              state := .starting .awaitReady, timer := some 500, driveEnable := true, brakeRelease := false
              p := s.slew.e, f := 0
              pending := some { asker := .sequencer, goal := (.position target
                (max (s.params .slew).vcreep (min (s.params .slew).vmax (256 * v)))) } } } ∧
          shown st ∧ b.statusPending = true))

/-- R111, R89: a FRESH record whose age passes 75 ms becomes STALE, and with the role ZONE withdraws a CLAIMING row that its station
shares; a STALE record whose age passes 500 ms becomes LOST with the notice PEER_LOST; other records, and every block but the
zone guard and the bus, are unchanged. The age that each leaves is the model's (log entry 24). -/
def Obligations.PeerAges : Prop :=
  ∀ (s : State) (m : BitVec 5) (r : PeerRecord), s.inReset = false →
    let n := m.toNat
    let aged (f : Freshness) (a : Nat) : List PeerRecord := s.peers.map (fun o =>
      if o.station = n then { o with freshness := f, age := some (max a (o.age.getD 0)) } else o)
    (findPeer s.peers n = some r → r.freshness = .fresh →
      ∃ z b, exec (.peerStale m) s = .next { s with peers := aged .stale 75, zones := z, bus := b } ∧
        (r.zoneRole = false → z = s.zones ∧ b = s.bus) ∧
        (r.zoneRole = true → ∀ (i : Nat) (g : GuardRow), s.zones.rows[i]? = some g → g.guard = .claiming → n ∈ g.zone.peers →
          ∃ g', z.rows[i]? = some g' ∧ g'.guard = .waiting ∧ g'.waited = true ∧ g'.window = none)) ∧
    (findPeer s.peers n = some r → r.freshness = .stale →
      ∃ z b, exec (.peerLost m) s = .next { s with
        peers := aged .lost 500, zones := z, bus := b, fault := { s.fault with notice := some .peerLost } }) ∧
    ((∀ o, findPeer s.peers n = some o → o.freshness ≠ .fresh) → exec (.peerStale m) s = .next s) ∧
    ((∀ o, findPeer s.peers n = some o → o.freshness ≠ .stale) → exec (.peerLost m) s = .next s)

/-- R91, R100: at the end of the claim window the CLAIMING row becomes HELD when every sharing peer is FRESH, OPERATIONAL and shows
NONE or a lower claim, and WAITING with its waited flag when one is not FRESH; nothing but the guard table and the bus changes.
When the zone wait limit is reached, ZONE_TIMEOUT is reported with the zone that asks and a peer that is not clear, the elapsed
time is reset and no row changes; the timer cannot run out while PAUSED or with no TRAVEL row asking (R99). -/
def Obligations.ZoneClocks : Prop :=
  ∀ (s : State) (i : Nat) (g : GuardRow), s.inReset = false → s.oneClaim → s.zones.rows[i]? = some g →
    let notFresh (pr : Nat) : Prop := ∀ o, findPeer s.peers pr = some o → o.freshness ≠ .fresh
    (g.guard = .claiming → (∀ pr ∈ g.zone.peers, ∃ o st e, findPeer s.peers pr = some o ∧ o.freshness = .fresh ∧
        o.status = some st ∧ st.mode = 2 ∧ st.zones.find? (fun e => decide (e.zone = g.zone.number)) = some e ∧
        (e.adv = .none ∨ e.adv = .claim ∧ (g.waited = true ∧ e.waited = false ∨
          g.waited = e.waited ∧ s.station < pr))) →
      ∃ z b, exec .claimWindowExpiry s = .next { s with zones := z, bus := b } ∧
        z.rows[i]? = some { g with guard := .held, waited := false, window := none }) ∧
    (g.guard = .claiming → (∃ pr ∈ g.zone.peers, notFresh pr) →
      ∃ z b, exec .claimWindowExpiry s = .next { s with zones := z, bus := b } ∧
        z.rows[i]? = some { g with guard := .waiting, waited := true, window := none }) ∧
    ((∀ o ∈ s.zones.rows, o.guard ≠ .claiming) → exec .claimWindowExpiry s = .next s) ∧
    (g.guard = .claiming → g.need = .travel → s.seq.state ≠ .paused →
      ∃ t, exec .zoneTimeout s = .next t ∧ t.zones = { s.zones with waitElapsed := 0 } ∧
        FaultKind.zoneTimeout ∈ t.fault.held ∧ s.slew.stoppedBy .quick t.slew ∧ s.rake.stoppedBy .quick t.rake ∧
        s.stopsOnly t ∧
        (s.fault.record = none → ∃ r, t.fault.record = some r ∧ r.kind = .zoneTimeout ∧
          r.fields.zone = some g.zone.number ∧ r.fields.axis = none ∧
          (∀ pr rest, g.zone.peers = pr :: rest → notFresh pr → r.fields.peer = some pr))) ∧
    (s.seq.state = .paused ∨ (∀ o ∈ s.zones.rows, o.need ≠ .travel) → exec .zoneTimeout s = .next s)

/-- R94: no command but a profile tick, a reset, a restart and the end of START changes a HELD row: not a status, whatever it shows,
not a peer that leaves FRESH, not a fault, not the entry into COMMISSION or ISOLATED (R101). -/
def Obligations.HeldRowsStand : Prop :=
  ∀ (c : Instr) (s : State) (i : Nat) (g : GuardRow), s.zones.rows[i]? = some g → g.guard = .held →
    c ≠ .profileTick → c ≠ .warmRestart → c ≠ .resetTaken → (∀ p, c ≠ .coldReset p) → (∀ n, c ≠ .startEnd n) →
    ∃ t, exec c s = .next t ∧ t.zones.rows[i]? = some g

/-! ## The enable and the sequencer -/

/-- R141, R135: an ENABLE of a configured console that names this station restarts the timer at 150 ms and sets enable present; any
other changes the receiver alone. A PAUSED conversion resumes with it: a dwell runs on, and an INTERRUPTED slew whose pause
stop still runs is asked again for the step's target, which waits for the end of the stop. -/
def Obligations.EnableHeard : Prop :=
  ∀ (s : State) (snd : Sender) (targets : BitVec 32), s.hears snd →
    let row : Instr := .enableFrame snd targets
    let taken : State := { s.heard row.frame with mon := { s.mon with present := true, timer := some 150 } }
    let good : Prop := s.comm.mode ≠ .unconfigured ∧ snd.station.toNat ∈ s.consoles ∧ s.comm.straps ≠ 0 ∧
      targets.getLsbD s.comm.straps = true
    (¬ good → exec row s = .next (s.heard row.frame)) ∧
    (good → s.mon.present = true ∨ s.seq.state ≠ .paused → exec row s = .next taken) ∧
    (good → s.mon.present = false → s.seq.state = .paused → s.seq.phase = .dwell →
      ∃ z b, exec row s = .next { taken with seq := { s.seq with state := .running }, zones := z, bus := b } ∧
        z.rows = s.zones.rows ∧ b.statusPending = true) ∧
    (∀ k target v, good → s.mon.present = false → s.seq.state = .paused → s.seq.phase = .moving →
      s.seq.rakeMove = .none ∨ s.seq.rakeMove = .arrived → s.seq.slewMove = .interrupted →
      s.slew.state = .stopping k → s.slew.negLimit = false → s.slew.posLimit = false →
      s.currentStep.slew = some (target, v) →
      (s.slew.referenced = true → s.slewSoft.1 ≤ target ∧ target ≤ s.slewSoft.2) →
      ∃ z b, exec row s = .next { taken with
        seq := { s.seq with state := .running, slewMove := .requested }, zones := z, bus := b
        slew := { s.slew with pending := some { asker := .sequencer, goal := (.position target
          (max (s.params .slew).vcreep (min (s.params .slew).vmax (256 * v)))) } } } ∧
        z.rows = s.zones.rows)

/-- R142, R133, R148: when the enable timer runs out, enable present is clear and the timer stopped; a RUNNING conversion is PAUSED
with step and phase kept and a controlled stop of each REQUESTED axis, which becomes INTERRUPTED; an active run ends with a
controlled stop of its axis. -/
def Obligations.EnableEnds : Prop :=
  ∀ (s : State) (x : Axis), s.inReset = false →
    (s.mon.timer = none → exec .enableExpiry s = .next s) ∧
    (s.mon.timer.isSome → s.mon.run = .none → s.seq.state ≠ .running →
      exec .enableExpiry s = .next { s with mon := { s.mon with present := false, timer := none } }) ∧
    (s.mon.timer.isSome → s.mon.run = .none → s.seq.state = .running →
      ∃ t, exec .enableExpiry s = .next t ∧ t.seq.state = .paused ∧ t.seq.layout = s.seq.layout ∧
        t.seq.step = s.seq.step ∧ t.seq.phase = s.seq.phase ∧ t.seq.stepElapsed = s.seq.stepElapsed ∧
        t.seq.dwellElapsed = s.seq.dwellElapsed ∧ t.seq.met = s.seq.met ∧
        t.mon = { s.mon with present := false, timer := none } ∧ t.fault = s.fault ∧ t.peers = s.peers ∧
        s.stopsOnly t ∧
        (s.seq.move x = .requested → (s.axis x).stoppedBy .controlled (t.axis x)) ∧
        (s.seq.move x = .requested → (s.axis x).state = .tracking false → (s.axis x).requester = some .sequencer →
          t.seq.move x = .interrupted) ∧
        (s.seq.move x ≠ .requested → t.axis x = s.axis x ∧ t.seq.move x = s.seq.move x)) ∧
    (s.mon.timer.isSome → s.mon.run.axis = some x → s.seq.state ≠ .running →
      ∃ t, exec .enableExpiry s = .next t ∧ t.mon = { present := false, timer := none, run := .none } ∧
        (s.axis x).stoppedBy .controlled (t.axis x) ∧ t.axis (otherAxis x) = s.axis (otherAxis x) ∧
        t.fault = s.fault ∧ t.peers = s.peers ∧ t.seq.state = s.seq.state ∧ s.stopsOnly t)

/-- R121, R122: a CONVERT gets the outcome of the first condition that fails, or arms the sequencer with the slot that holds the
layout, the hold-off clamped into 200 to 5000 ms and the script peers' records made, and gives ACCEPTED. In START and ISOLATED
it is received and not processed. -/
def Obligations.ConvertJudged : Prop :=
  ∀ (s : State) (h : CommandHead) (layout : Byte) (delay : BitVec 16),
    let row : Instr := .convert h layout delay
    let lay := layout.toNat
    let console := h.sender.station.toNat
    let answered (o : CmdOutcome) : State := (s.heard row.frame).giveOutcome console h.tag.toNat o
    let first : Option CmdOutcome :=
      if s.comm.mode ≠ .operational then some .refusedState
      else if s.seq.state = .armed ∨ s.seq.state = .running ∨ s.seq.state = .paused then some .refusedBusy
      else if s.mon.run ≠ .none then some .refusedBusy
      else if s.fault.lineAsserted = true then some .refusedStopLine
      else if s.fault.record.isSome then some .refusedFault
      else if s.slew.referenced = false ∨ s.rake.referenced = false then some .refusedNotReferenced
      else none
    let stands (sl : Slot) : Prop :=
      (sl.state = .programmed ∨ sl.state = .locked) ∧ sl.header.map (·.layout) = some lay
    (s.inReset = false → s.comm.mode = .start ∨ (s.comm.mode = .isolated ∧ console ≠ s.comm.straps) →
      exec row s = .next (s.heard row.frame)) ∧
    (∀ o, s.commanded h → first = some o → exec row s = .next (answered o)) ∧
    (s.commanded h → first = none → lay = 0 ∨ 250 < lay ∨ (∀ sl ∈ s.nv.slots, ¬ stands sl) →
      exec row s = .next (answered .refusedNoLayout)) ∧
    (∀ i sl hd, s.commanded h → first = none → 1 ≤ lay → lay ≤ 250 → s.nv.slots[i]? = some sl → stands sl → sl.header = some hd →
      (∀ j, j < i → ∀ o, s.nv.slots[j]? = some o → ¬ stands o) →
      let script := s.scriptPeers (i + 1) hd.count
      let new := script.filter (fun n => (findPeer s.peers n).isNone)
      (s.comm.straps ∈ script ∨ 8 < new.length + s.peers.length →
        exec row s = .next (answered .refusedPeers)) ∧
      (s.comm.straps ∉ script → new.length + s.peers.length ≤ 8 →
        ∃ t, exec row s = .next t ∧
          t = { s with peers := t.peers, bus := t.bus, seq := { s.seq with
            state := .armed, layout := lay, slot := i + 1, count := hd.count, step := 0, phase := .none
            armed := some (console, h.tag.toNat), holdOff := some (max 200 (min 5000 delay.toNat)) } } ∧
          t.bus.outcome = some { console := console, tag := h.tag.toNat, outcome := .accepted } ∧
          t.bus.statusPending = true ∧
          (∀ r ∈ s.peers, { r with scriptRole := r.scriptRole || script.contains r.station } ∈ t.peers) ∧
          (∀ n ∈ script, ∃ r ∈ t.peers, r.station = n ∧ r.scriptRole = true) ∧
          (∀ r ∈ t.peers, findPeer s.peers r.station = none →
            r = { station := r.station, zoneRole := false, scriptRole := true, freshness := .unheard, age := none
                  status := none } ∧ r.station ∈ script)))

/-- R125, R136: a CANCEL gives DONE; in ARMED the sequencer is IDLE again, in RUNNING and PAUSED it is ABORTED with a controlled stop
of each REQUESTED axis and no other, and the script peers are dropped (R107); in other states nothing more changes. -/
def Obligations.CancelTaken : Prop :=
  ∀ (s : State) (h : CommandHead) (x : Axis), s.commanded h →
    let row : Instr := .cancel h
    (s.seq.state.atEase = true →
      exec row s = .next ((s.heard row.frame).giveOutcome h.sender.station.toNat h.tag.toNat .done)) ∧
    (s.seq.state.atEase = false → ∃ t, exec row s = .next t ∧ s.seq.endedFrom t.seq ∧ s.stopsOnly t ∧
      t.bus.outcome = some { console := h.sender.station.toNat, tag := h.tag.toNat, outcome := .done } ∧
      t.bus.statusPending = true ∧
      t.peers = (s.peers.filter (·.zoneRole)).map (fun r => { r with scriptRole := false }) ∧ t.fault = s.fault ∧
      (s.seq.converting = true → s.seq.move x = .requested → (s.axis x).stoppedBy .controlled (t.axis x)) ∧
      (s.seq.converting = false ∨ s.seq.move x ≠ .requested → t.axis x = s.axis x) ∧
      (s.mon.run = .none → t.mon = s.mon))

/-- R123, R126 to R128: the end of the hold-off starts step 0, RUNNING with the enable present and PAUSED without; a FRESH script peer
that still says ABORTED for the layout aborts it at once with PEER_ABORTED; a first step whose condition is unmet waits; one
with a slew target and no condition asks the slew, which in OFF starts its handshake. Steps as the slot holds them (R118). That
the abort comes before any axis is asked, so that it leaves both as they were, is the order of log entry 15 (DEDUCED). -/
def Obligations.HoldOffEnds : Prop :=
  ∀ (s : State), s.inReset = false →
    let step0 := ({ s with seq := { s.seq with step := 0 } } : State).currentStep
    let aborted (r : PeerRecord) : Prop := r.scriptRole = true ∧ r.freshness = .fresh ∧
      ∃ st, r.status = some st ∧ st.seqState = 5 ∧ st.layout = s.seq.layout
    let begun (q : Sequencer) : Prop := q.step = 0 ∧ q.layout = s.seq.layout ∧ q.slot = s.seq.slot ∧
      q.count = s.seq.count ∧ q.holdOff = none ∧ q.stepElapsed = 0 ∧ q.dwellElapsed = 0 ∧ q.rakeMove = .none
    (s.seq.state ≠ .armed → exec .holdOffExpiry s = .next s) ∧
    (s.seq.state = .armed → (∃ r ∈ s.peers, aborted r) →
      ∃ t, exec .holdOffExpiry s = .next t ∧ t.seq.state = .aborted ∧ t.seq.layout = s.seq.layout ∧ t.seq.step = 0 ∧
        t.seq.phase = .none ∧ t.fault = { s.fault with notice := some .peerAborted } ∧ t.slew = s.slew ∧
        t.rake = s.rake ∧ t.mon = s.mon ∧
        t.peers = (s.peers.filter (·.zoneRole)).map (fun r => { r with scriptRole := false })) ∧
    (s.seq.state = .armed → (∀ r ∈ s.peers, ¬ aborted r) →
      (s.mon.present = false →
        ∃ q b, exec .holdOffExpiry s = .next { s with seq := q, bus := b } ∧ q.state = .paused ∧
          q.phase = .waitPeers ∧ q.slewMove = .none ∧ begun q) ∧
      (s.mon.present = true → (∃ c ∈ step0.conds, ∀ r, findPeer s.peers c.1 = some r → r.freshness ≠ .fresh) →
        ∃ q z b, exec .holdOffExpiry s = .next { s with seq := q, zones := z, bus := b } ∧ q.state = .running ∧
          q.phase = .waitPeers ∧ q.slewMove = .none ∧ begun q ∧ z.rows = s.zones.rows) ∧
      (∀ target v, s.mon.present = true → step0.conds = [] → step0.slew = some (target, v) → step0.rake = none →
        s.slew.state = .off → s.slew.ready = false → s.comm.restartPending = false → s.slew.negLimit = false → s.slew.posLimit = false →
        (s.slew.referenced = true → s.slewSoft.1 ≤ target ∧ target ≤ s.slewSoft.2) →
        ∃ q z b, exec .holdOffExpiry s = .next { s with
            seq := q, zones := z, bus := b
            slew := { s.slew with
              state := .starting .awaitReady, timer := some 500, driveEnable := true, brakeRelease := false
              p := s.slew.e, f := 0
              pending := some { asker := .sequencer, goal := (.position target
                (max (s.params .slew).vcreep (min (s.params .slew).vmax (256 * v)))) } } } ∧
          q.state = .running ∧ q.phase = .moving ∧ q.slewMove = .requested ∧ begun q ∧ z.rows = s.zones.rows))

/-- R130 to R132: a dwell that has passed hands over to the next step, or enters COMPLETE with step and layout kept and the script
peers dropped; the step time limit reached in WAIT_PEERS or MOVING reports STEP_TIMEOUT with the peer not met or the axis that
has not arrived, and aborts. Neither timer runs outside RUNNING. -/
def Obligations.StepClocks : Prop :=
  ∀ (s : State), s.inReset = false →
    let next := ({ s with seq := { s.seq with step := s.seq.step + 1 } } : State).currentStep
    let open_ (m : MoveState) : Prop := m = .requested ∨ m = .interrupted ∨ m = .heldBack
    (s.seq.state ≠ .running ∨ s.seq.phase ≠ .dwell → exec .dwellEnd s = .next s) ∧
    (s.seq.state = .running → s.seq.phase = .dwell → s.seq.count ≤ s.seq.step + 1 →
      ∃ b, exec .dwellEnd s = .next { s with
        seq := { s.seq with state := .complete, phase := .done, holdOff := none, dwellElapsed := s.currentStep.dwellMs }
        peers := (s.peers.filter (·.zoneRole)).map (fun r => { r with scriptRole := false }), bus := b }) ∧
    (s.seq.state = .running → s.seq.phase = .dwell → s.seq.step + 1 < s.seq.count →
      (∃ c ∈ next.conds, ∀ r, findPeer s.peers c.1 = some r → r.freshness ≠ .fresh) →
      ∃ met b, exec .dwellEnd s = .next { s with bus := b, seq := { s.seq with
        step := s.seq.step + 1, phase := .waitPeers, met := met, slewMove := .none, rakeMove := .none
        stepElapsed := 0, dwellElapsed := 0 } } ∧ b.statusPending = true) ∧
    (s.seq.state ≠ .running ∨ (s.seq.phase ≠ .waitPeers ∧ s.seq.phase ≠ .moving) →
      exec .stepTimeout s = .next s) ∧
    (s.seq.state = .running → s.seq.phase = .waitPeers ∨ s.seq.phase = .moving →
      ∃ t, exec .stepTimeout s = .next t ∧ FaultKind.stepTimeout ∈ t.fault.held ∧ s.seq.endedFrom t.seq ∧
        s.slew.stoppedBy .quick t.slew ∧ s.rake.stoppedBy .quick t.rake ∧ s.stopsOnly t ∧
        (s.fault.record = none → ∃ r, t.fault.record = some r ∧ r.kind = .stepTimeout ∧
          r.place = some (s.seq.layout, s.seq.step) ∧ r.fields.zone = none ∧
          (s.seq.phase = .moving → open_ s.seq.rakeMove → r.fields.axis = some .rake) ∧
          (s.seq.phase = .moving → ¬ open_ s.seq.rakeMove → open_ s.seq.slewMove → r.fields.axis = some .slew) ∧
          (∀ (i : Nat) (c : Nat × Nat), s.seq.phase = .waitPeers → s.currentStep.conds[i]? = some c → s.seq.met[i]? = some false →
            (∀ j, j < i → s.seq.met[j]? = some true) → r.fields.peer = some c.1)))

/-! ## Jogs, homing runs and CLEAR_FAULT -/

/-- R143, R144: a JOG and a HOME are refused with the outcome of the first condition that fails, and nothing else changes. That
any ACTIVE limit of the axis serves R144's exception, also when the limit that latched LIMIT has become INACTIVE, is the model's
choice (log entry 29, DESIGN CHOICE). -/
def Obligations.RunsJudged : Prop :=
  ∀ (s : State) (h : CommandHead) (x : Axis) (d : Dir) (speed : BitVec 24) (o : CmdOutcome), s.commanded h →
    let answered (c : Instr) : State :=
      (s.heard c.frame).giveOutcome h.sender.station.toNat h.tag.toNat o
    let jog : Instr := .jog h (axisByte x) (dirByte d) speed
    let home : Instr := .home h (axisByte x)
    (s.runRefusal x d = some o → exec jog s = .next (answered jog)) ∧
    (s.runRefusal x (s.searchDir x) = some o → exec home s = .next (answered home))

/-- R145, R40: a JOG that passes its conditions gives DONE when the REFERENCED axis stands at its soft limit, and otherwise starts a
run: toward the soft limit in POSITION mode, in the direction in VELOCITY mode for an UNREFERENCED axis, the speed clamped into
Vcreep to Vjog, and Vcreep for an UNREFERENCED slew. The axis in OFF starts its handshake. The conditions passed take R144's
exception for any ACTIVE limit of the axis (log entry 29, DESIGN CHOICE). -/
def Obligations.JogStarts : Prop :=
  ∀ (s : State) (h : CommandHead) (x : Axis) (d : Dir) (speed : BitVec 24), s.commanded h → s.runRefusal x d = none →
    let row : Instr := .jog h (axisByte x) (dirByte d) speed
    let a := s.axis x
    let par := s.params x
    let soft : Int := match d with | .pos => par.softHi | .neg => par.softLo
    let there : Prop := match d with | .pos => soft ≤ a.p | .neg => a.p ≤ soft
    let v : Nat := if x = .slew ∧ a.referenced = false then par.vcreep
      else max par.vcreep (min par.vjog speed.toNat)
    let goal : Goal := if a.referenced then .position soft v else .velocity d v
    (a.referenced = true → there →
      exec row s = .next ((s.heard row.frame).giveOutcome h.sender.station.toNat h.tag.toNat .done)) ∧
    (a.referenced = false ∨ ¬ there → par.vcreep ≤ par.vjog → par.vjog ≤ par.vmax → par.softLo ≤ par.softHi →
      a.state = .off → a.ready = false →
      let run : Run := .jog x d (if a.referenced then .position else .velocity)
      exec row s = .next (({ s.heard row.frame with mon := { s.mon with run := run } }.setAxis x { a with
        p := a.e, f := 0, pending := some { goal := goal, asker := .enableMonitor }, state := .starting .awaitReady
        timer := some 500, driveEnable := true, brakeRelease := false }).giveOutcome
          h.sender.station.toNat h.tag.toNat .accepted))

/-- R147: in OPERATIONAL a JOG_END for the jogging axis ends the jog with a controlled stop of that axis; in any other case it changes
nothing; it gives DONE. In UNCONFIGURED it is refused with REFUSED_STATE. -/
def Obligations.JogEnds : Prop :=
  ∀ (s : State) (h : CommandHead) (x : Axis) (d : Dir) (m : JogMode),
    let row : Instr := .jogEnd h (axisByte x)
    (s.commanded h → s.comm.mode = .operational → s.mon.run = .jog x d m →
      ∃ t, exec row s = .next t ∧ t.mon = { s.mon with run := .none } ∧
        (s.axis x).stoppedBy .controlled (t.axis x) ∧ t.axis (otherAxis x) = s.axis (otherAxis x) ∧
        t.fault = s.fault ∧ t.seq.state = s.seq.state ∧ s.stopsOnly t ∧
        t.bus.outcome = some { console := h.sender.station.toNat, tag := h.tag.toNat, outcome := .done }) ∧
    (s.commanded h → s.comm.mode ≠ .operational ∨ (∀ e k, s.mon.run ≠ .jog x e k) →
      exec row s = .next ((s.heard row.frame).giveOutcome h.sender.station.toNat h.tag.toNat .done)) ∧
    (s.hears h.sender → s.comm.mode = .unconfigured → s.comm.restartPending = false →
      inTargets h.targets s.station = true →
      exec row s = .next ((s.heard row.frame).giveOutcome h.sender.station.toNat h.tag.toNat .refusedState))

/-- R149, R12: a HOME that passes its conditions takes the reference away, starts the search in OUTBOUND and asks for VELOCITY motion at
Vhome in the first direction; the run is HOME and the outcome ACCEPTED. The axis in OFF starts its handshake. The conditions
passed take R144's exception for any ACTIVE limit of the axis (log entry 29, DESIGN CHOICE). -/
def Obligations.HomeStarts : Prop :=
  ∀ (s : State) (h : CommandHead) (x : Axis), s.commanded h → s.runRefusal x (s.searchDir x) = none →
    (s.axis x).state = .off → (s.axis x).ready = false →
    ∃ t, exec (.home h (axisByte x)) s = .next t ∧
      t = { s with mon := { s.mon with run := .home x }, bus := t.bus }.setAxis x { s.axis x with
        referenced := false, leg := some .outbound, metLimit := false, p := (s.axis x).e, f := 0
        state := .starting .awaitReady, timer := some 500, driveEnable := true, brakeRelease := false
        pending := some { asker := .positionUnit, goal := (.velocity (s.searchDir x)
          (max (s.params x).vcreep (min (s.params x).vmax (s.params x).vhome))) } } ∧
      t.bus.outcome = some { console := h.sender.station.toNat, tag := h.tag.toNat, outcome := .accepted } ∧
      t.bus.statusPending = true

/-- R172, R173: a CLEAR_FAULT gives DONE on an empty record; with every condition gone it empties record and set, releases the STOP
line drive, takes FAULTED axes to OFF with P at E (R36) and gives DONE; with one that persists it gives REFUSED_ACTIVE and changes
nothing. The condition of each kind of the record: an axis at rest, both at rest, the chain closed, a frame sent, no conflicting entry of a
sharing peer left (R97, R98), always gone or never. That a BLOCK conflicts with the claim mark as without it is the model's choice
(log entry 30, DESIGN CHOICE). -/
def Obligations.ClearFaultTaken : Prop :=
  ∀ (s : State) (h : CommandHead) (r : FaultRecord), s.commanded h →
    let row : Instr := .clearFault h
    let answered (u : State) (o : CmdOutcome) : State := u.giveOutcome h.sender.station.toNat h.tag.toNat o
    let rest (a : AxisUnit) : Prop := a.state = .off ∨ a.state = .faulted
    let offed (a : AxisUnit) : AxisUnit := if a.state = .faulted then
      { a with
        state := .off, timer := none, driveEnable := false, brakeRelease := false, speedRef := 0, p := a.e, f := 0, v := 0
        mode := none, requester := none } else a
    let gone (k : FaultKind) (f : Option FaultFields) : Prop := s.conditionGone k f = true
    let conflicts (zone pr : Nat) : Prop := ∃ o st, findPeer s.peers pr = some o ∧ o.freshness = .fresh ∧ o.status = some st ∧
      (st.mode = 2 → ∀ e, st.zones.find? (fun e => decide (e.zone = zone)) = some e →
        e.adv = .held ∨ (e.adv = .block ∧ st.slewRef = true))
    (s.fault.record = none → exec row s = .next (answered (s.heard row.frame) .done)) ∧
    (s.fault.record = some r → gone r.kind (some r.fields) → (∀ k ∈ s.fault.alsoSeen, gone k none) →
      exec row s = .next (answered { s.heard row.frame with
        slew := offed s.slew, rake := offed s.rake
        fault := { s.fault with record := none, alsoSeen := [], drivesStop := false } } .done)) ∧
    (s.fault.record = some r → ¬ (gone r.kind (some r.fields) ∧ ∀ k ∈ s.fault.alsoSeen, gone k none) →
      exec row s = .next (answered (s.heard row.frame) .refusedActive)) ∧
    (∀ f x, f.axis = some x → ∀ k ∈ [FaultKind.following, .encoderSlip, .drive],
      (gone k (some f) ↔ rest (s.axis x)) ∧ (gone k none ↔ rest s.slew ∧ rest s.rake)) ∧
    (∀ f z, f.zone = some z → (gone .zoneConflict (some f) ↔
      ∀ g ∈ s.zones.rows, g.zone.number = z → ∀ pr ∈ g.zone.peers, ¬ conflicts z pr)) ∧
    (gone .zoneConflict none ↔
      ∀ g ∈ s.zones.rows, g.guard = .held → ∀ pr ∈ g.zone.peers, ¬ conflicts g.zone.number pr) ∧
    (∀ f, ∀ k ∈ [FaultKind.stepTimeout, .zoneTimeout], gone k f ↔ rest s.slew ∧ rest s.rake) ∧
    (∀ f, (gone .eStop f ↔ s.chainOpen = false) ∧ (gone .busSilent f ↔ s.fault.sentSinceSilence = true) ∧
      gone .limit f ∧ gone .homeFail f ∧ ¬ gone .duplicateStation f ∧
      (gone .envelopeBreach f ↔ rest s.slew ∧ rest s.rake ∧ (s.slew.referenced = true → ∀ g ∈ s.zones.rows,
        s.env.slew.lo ≤ g.zone.hi → g.zone.lo ≤ s.env.slew.hi → g.guard = .held)))

/-- R162, R164, R180: a COMMAND that is not addressed to this station, and a SERVICE_REQ for another station or with no place FREE,
change the receiver alone; in UNCONFIGURED a COMMAND gets REFUSED_STATE, with a restart pending REFUSED_BUSY; a HOME, JOG or
JOG_END with an undefined axis or direction gets REFUSED_STATE; with a restart pending every request is answered BUSY. -/
def Obligations.TurnedAway : Prop :=
  ∀ (s : State) (c : Instr) (h : CommandHead) (k : Byte) (r : ServiceReq) (n : Nat),
    let answered (o : CmdOutcome) : State :=
      (s.heard c.frame).giveOutcome h.sender.station.toNat h.tag.toNat o
    let named : Prop := s.comm.straps ≠ 0 ∧ h.targets.getLsbD s.comm.straps = true
    (c.commandHead = some h → s.hears h.sender →
      (¬ named → exec c s = .next (s.heard c.frame)) ∧
      (s.comm.mode ≠ .unconfigured → h.sender.station.toNat ∉ s.consoles → exec c s = .next (s.heard c.frame)) ∧
      (s.comm.mode = .unconfigured → named → s.comm.restartPending = false →
        exec c s = .next (answered .refusedState)) ∧
      (s.comm.mode = .unconfigured ∨ h.sender.station.toNat ∈ s.consoles → named → s.comm.restartPending = true →
        exec c s = .next (answered .refusedBusy)) ∧
      (∀ a d v, s.commanded h → 1 < a.toNat ∨ (1 < d.toNat ∧ ∃ y z, c = .jog h y d z) →
        c = .home h a ∨ c = .jogEnd h a ∨ c = .jog h a d v → exec c s = .next (answered .refusedState))) ∧
    (c.serviceReq = some (k, r) → s.hears r.sender → r.wf = true →
      (r.target.toNat ≠ s.comm.straps ∨ s.bus.freePlace = none → exec c s = .next (s.heard c.frame)) ∧
      (r.target.toNat = s.comm.straps → s.bus.freePlace = some n → s.comm.restartPending = true →
        exec c s = .next (s.replied k r n 2 [])))

/-! ## Service requests -/

/-- R164, R176, R187, R188, R115: the requests that only read, and those of no defined kind, are answered at once from the state as it
stands, and change nothing but the receiver, the levels of jumper and straps last read and the reply FIFO. What IDENTIFY shows of
a slot under an operation is log entry 31 (DESIGN CHOICE), and the deviation of an empty capture record a free value (log entry
32). -/
def Obligations.ReadsAnswered : Prop :=
  ∀ (s : State) (r : ServiceReq) (n : Nat), s.requested r n → s.comm.restartPending = false →
    let seen : State := { s with comm := { s.comm with jumper := r.jumper, strapLevel := r.straps } }
    (r.args = [] → exec (.identify r) s = .next (s.replied 1 r n 1 seen.identifyData)) ∧
    (s.nv.slots.length = 12 → seen.identifyData.length = 30) ∧
    (r.args ≠ [] → exec (.identify r) s = .next (s.replied 1 r n 6 [])) ∧
    (exec (.readFault r) s = .next (s.replied 2 r n 1 s.faultData) ∧ s.faultData.length = 18) ∧
    (r.args = [0] → exec (.readPeers r) s =
      .next (s.replied 3 r n 1 (toByte s.peers.length :: s.peers.flatMap PeerRecord.listBytes))) ∧
    (∀ (k : Byte) (p : PeerRecord), r.args = [k] → 1 ≤ k.toNat → k.toNat ≤ 31 → findPeer s.peers k.toNat = some p →
      exec (.readPeers r) s = .next (s.replied 3 r n 1 p.recordBytes)) ∧
    (∀ k : Byte, r.args = [k] → k ≠ 0 → 31 < k.toNat ∨ findPeer s.peers k.toNat = none →
      exec (.readPeers r) s = .next (s.replied 3 r n 6 [])) ∧
    (∀ x : Axis, r.args = [axisByte x] →
      exec (.readCapture r) s = .next (s.replied 4 r n 1 (s.axis x).captureData) ∧ (s.axis x).captureData.length = 13) ∧
    (∀ k : Byte, r.args = [k] → 1 < k.toNat → exec (.readCapture r) s = .next (s.replied 4 r n 6 [])) ∧
    (∀ (k i : Byte) (sl : Slot), r.args = [k, i] → 1 ≤ k.toNat → k.toNat ≤ 12 → s.nv.slots[k.toNat - 1]? = some sl →
      (s.store.job.isSome → exec (.readSlot r) s = .next (s.replied 5 r n 2 [])) ∧
      (s.store.job = none → exec (.readSlot r) s = .next (s.replied 5 r n 1
        (sl.cellForm (i.toNat % sl.wrap) ++ sl.cellForm ((i.toNat + 1) % sl.wrap))))) ∧
    (∀ k i : Byte, r.args = [k, i] → k = 0 ∨ 12 < k.toNat → exec (.readSlot r) s = .next (s.replied 5 r n 6 [])) ∧
    (∀ k : Byte, k = 0 ∨ 15 < k.toNat → exec (.undefinedServiceReq k r) s = .next (s.replied k r n 6 []))

/-- R179, R180, R101: COMMISSION_ENTER is refused without the jumper, is OK in COMMISSION, BUSY in an OPERATIONAL station at work, and
otherwise enters COMMISSION with the working copy filled and every claim dropped, HELD rows kept; COMMISSION_EXIT in COMMISSION
and RESTART in any sending mode set restart-pending with both axes OFF and the store not busy, and are BUSY otherwise. -/
def Obligations.ModeRequests : Prop :=
  ∀ (s : State) (r : ServiceReq) (n : Nat), s.requested r n → s.comm.restartPending = false →
    let quiet : Prop := s.seq.state.atEase = true ∧ s.mon.run = .none ∧ s.slew.state = .off ∧ s.rake.state = .off
    let free : Prop := s.store.job = none ∧ s.slew.state = .off ∧ s.rake.state = .off
    let armed (k : Byte) : State := { s.replied k r n 1 [] with
      comm := { s.comm with
        jumper := r.jumper, strapLevel := r.straps, restartPending := true, restartLeft := some 250 } }
    (r.jumper = false → exec (.commissionEnter r) s = .next (s.replied 6 r n 3 [])) ∧
    (r.jumper = true → s.comm.mode = .commission → exec (.commissionEnter r) s = .next (s.replied 6 r n 1 [])) ∧
    (r.jumper = true → s.comm.mode = .operational → ¬ quiet →
      exec (.commissionEnter r) s = .next (s.replied 6 r n 2 [])) ∧
    (r.jumper = true → s.comm.mode = .unconfigured ∨ s.comm.mode = .operational ∧ quiet →
      ∃ t, exec (.commissionEnter r) s = .next t ∧ t.readyReply n = some (s.replyTo 6 r 1 []) ∧
        t.comm = { s.comm with
          mode := .commission, jumper := true, strapLevel := r.straps
          working := some (match s.comm.record with | some q => q.bytes | none => List.replicate 152 0) } ∧
        t.zones.rows = s.zones.rows.map (fun g => if g.guard = .claiming ∨ g.guard = .waiting then
          { g with guard := .free, waited := false, window := none } else g) ∧
        t = { s with comm := t.comm, zones := t.zones, bus := t.bus }) ∧
    (s.comm.mode ≠ .commission → exec (.commissionExit r) s = .next (s.replied 7 r n 3 [])) ∧
    (s.comm.mode = .commission → free → exec (.commissionExit r) s = .next (armed 7)) ∧
    (s.comm.mode = .commission → ¬ free → exec (.commissionExit r) s = .next (s.replied 7 r n 2 [])) ∧
    (free → exec (.restart r) s = .next (armed 15)) ∧
    (¬ free → exec (.restart r) s = .next (s.replied 15 r n 2 []))

/-- R182 to R185: the store requests are judged in order: COMMISSION with the jumper, not busy, the latch, the arguments, the slot;
WRITE_ENABLE sets the latch and CONFIG_WRITE replaces bytes of the working copy at once; an accepted operation makes the store
busy for its time with its reply place RESERVED. A CONFIG_COMMIT judges the copy for the straps as they stand then (R181); a
failed one names a field that fails its range, none failing before it, or one that a failed relation ties, which of them being a
free value (log entry 6), so that with every relation good it is the first failing field. -/
def Obligations.StoreRequests : Prop :=
  ∀ (s : State) (c : Instr) (k : Byte) (r : ServiceReq) (n : Nat), s.requested r n → s.comm.restartPending = false →
    let enabled : Prop := s.comm.mode = .commission ∧ r.jumper = true
    let open_ : Prop := enabled ∧ s.store.job = none ∧ s.store.latch = true
    let own : Nat := r.straps.toNat
    (c.serviceReq = some (k, r) → 8 ≤ k.toNat → k.toNat ≤ 14 →
      (¬ enabled → exec c s = .next (s.replied k r n 3 [])) ∧
      (enabled → s.store.job.isSome → exec c s = .next (s.replied k r n 2 [])) ∧
      (enabled → s.store.job = none → s.store.latch = false → k ≠ 8 → k ≠ 13 →
        exec c s = .next (s.replied k r n 4 []))) ∧
    (enabled → s.store.job = none →
      exec (.writeEnable r) s = .next { s.replied 8 r n 1 [] with store := { s.store with latch := true } }) ∧
    (∀ (off : Byte) (data copy : List Byte), enabled → s.store.job = none → r.args = off :: data →
      s.comm.working = some copy → copy.length = 152 →
      (1 ≤ data.length → data.length ≤ 32 → off.toNat + data.length ≤ 152 →
        exec (.configWrite r) s = .next { s.replied 13 r n 1 [] with comm := { s.comm with
          jumper := r.jumper
          strapLevel := r.straps
          working := some (copy.take off.toNat ++ data ++ copy.drop (off.toNat + data.length)) } }) ∧
      (152 < off.toNat + data.length → exec (.configWrite r) s = .next (s.replied 13 r n 6 []))) ∧
    (∀ copy, open_ → r.args = [] → s.comm.working = some copy →
      (recordOk own copy = true →
        exec (.configCommit r) s = .next (s.began 14 r n (.commit copy) 30)) ∧
      (recordOk own copy = false →
        ∃ off, exec (.configCommit r) s = .next (s.replied 14 r n 6 (bytes16 (BitVec.ofNat 16 off))) ∧
          (∀ f ∈ fieldChecks own copy, f.2 = false → off ≤ f.1) ∧
          ((∃ f ∈ fieldChecks own copy, f.2 = false ∧ off = f.1) ∨ ∃ q ∈ relations copy, q.2 = false ∧ off ∈ q.1))) ∧
    (∀ (b f lay cnt c1 c0 : Byte) (sl : Slot), open_ → 1 ≤ b.toNat → b.toNat ≤ 12 →
      s.nv.slots[b.toNat - 1]? = some sl →
      (r.args = [b] →
        (sl.state = .locked → exec (.eraseSlot r) s = .next (s.replied 9 r n 5 [])) ∧
        (sl.state ≠ .locked → exec (.eraseSlot r) s = .next (s.began 9 r n (.erase b.toNat) 40)) ∧
        (sl.state = .programmed → exec (.lockSlot r) s = .next (s.began 12 r n (.lock b.toNat) 10)) ∧
        (sl.state = .locked → exec (.lockSlot r) s = .next (s.replied 12 r n 5 [])) ∧
        (sl.state ≠ .locked → sl.state ≠ .programmed → exec (.lockSlot r) s = .next (s.replied 12 r n 3 []))) ∧
      (∀ (forms : List Byte) (steps : List StepRecord), r.args = b :: f :: forms → stepForms forms = some steps →
        let unused : Prop := ∀ i, i < steps.length → sl.cells[f.toNat + i]? = some .blank
        (16 < f.toNat + steps.length → exec (.programSteps r) s = .next (s.replied 10 r n 6 [])) ∧
        (f.toNat + steps.length ≤ 16 →
          (sl.state = .locked → exec (.programSteps r) s = .next (s.replied 10 r n 5 [])) ∧
          (sl.state = .programmed ∨ sl.state = .bad ∨ (sl.state ≠ .locked ∧ ¬ unused) →
            exec (.programSteps r) s = .next (s.replied 10 r n 8 [])) ∧
          (sl.state = .erased ∨ sl.state = .partly → unused →
            exec (.programSteps r) s = .next (s.began 10 r n (.program b.toNat f.toNat steps) 6)))) ∧
      (r.args = [b, lay, cnt, c1, c0] →
        let fits : Prop := 1 ≤ lay.toNat ∧ lay.toNat ≤ 250 ∧ 1 ≤ cnt.toNat ∧ cnt.toNat ≤ 16
        (¬ fits → exec (.finalizeSlot r) s = .next (s.replied 11 r n 6 [])) ∧
        (fits → sl.state = .locked → exec (.finalizeSlot r) s = .next (s.replied 11 r n 5 [])) ∧
        (fits → sl.state = .programmed ∨ sl.state = .bad →
          exec (.finalizeSlot r) s = .next (s.replied 11 r n 3 [])) ∧
        (fits → sl.state = .erased ∨ sl.state = .partly →
          exec (.finalizeSlot r) s =
            .next (s.began 11 r n (.finalize b.toNat lay.toNat cnt.toNat (join16 c1 c0)) 10)))) ∧
    (∀ b : Byte, open_ → r.args = [b] → b = 0 ∨ 12 < b.toNat →
      exec (.eraseSlot r) s = .next (s.replied 9 r n 6 []) ∧ exec (.lockSlot r) s = .next (s.replied 12 r n 6 []))

/-- R182 to R185: each self-timed operation at its completion writes what it came to write, clears busy and the latch, and hands its
reply to the place RESERVED for it; a FINALIZE_SLOT judges then, CHECK_MISMATCH first and a layout held elsewhere next. -/
def Obligations.StoreCompletes : Prop :=
  ∀ (s : State) (n left p : Nat) (sl : Slot) (q : ReplyTo), s.inReset = false → 1 ≤ n →
    s.nv.slots[n - 1]? = some sl → s.bus.place p = .reserved q →
    let running (op : StoreOp) : Prop := s.store.job = some { op := op, left := left, place := p }
    let ended (c : Instr) (nv : Nonvolatile) (outcome : Byte) : Prop :=
      ∃ b, exec c s = .next { s with nv := nv, store := { latch := false, job := none }, bus := b } ∧
        b.place p = .ready (frameBytes 5#3 s.self [q.requester.setWidth 8, q.kind, q.tag, outcome]) ∧
        b.readyOrder = s.bus.readyOrder ++ [p] ∧ b.rx = s.bus.rx ∧ b.tx = s.bus.tx
    let slotNow (sl' : Slot) : Nonvolatile := { s.nv with slots := s.nv.slots.set (n - 1) sl' }
    (running (.erase n) → ended .eraseComplete (slotNow
      { held := .erased, header := none, cells := List.replicate 16 .blank, torn := false, bad := false }) 1) ∧
    (∀ f steps, running (.program n f steps) → ∃ cells, ended .programComplete
      (slotNow { sl with held := .partly, cells := cells }) 1 ∧ cells.length = sl.cells.length ∧
      (∀ i st, steps[i]? = some st → f + i < sl.cells.length → cells[f + i]? = some (.programmed st)) ∧
      (∀ i, i < f ∨ f + steps.length ≤ i → cells[i]? = sl.cells[i]?)) ∧
    (∀ lay cnt chk, running (.finalize n lay cnt chk) →
      let forms := (List.range cnt).flatMap (fun i => ((sl.step? i).map StepRecord.form).getD [])
      let good : Prop := (∀ i, i < cnt → (sl.step? i).isSome) ∧ crc16 forms = chk
      let elsewhere : Prop := ∃ j o, j ≠ n - 1 ∧ s.nv.slots[j]? = some o ∧
        (o.state = .programmed ∨ o.state = .locked) ∧ o.header.map (·.layout) = some lay
      (¬ good → ended .finalizeComplete s.nv 7) ∧ (good → elsewhere → ended .finalizeComplete s.nv 6) ∧
      (good → ¬ elsewhere → ended .finalizeComplete (slotNow { sl with
        held := .programmed, header := some { layout := lay, count := cnt, crc := chk } }) 1)) ∧
    (running (.lock n) → ended .lockComplete (slotNow { sl with held := .locked }) 1) ∧
    (∀ bs, running (.commit bs) →
      ended .commitComplete { s.nv with record := bs ++ bytes16 (crc16 bs), recordTorn := false } 1)

/-! ## Resets and START -/

/-- R18, R37, R54, R76, R102, R116, R140, R152, R166, R177, R180, R186: a cold reset starts every block from its cold-reset value,
with the levels read on the pins, and keeps the nonvolatile content but for what an operation under way tears; a reset that
is taken drops the outputs and the STOP line drive at once, and nothing but a reset changes the part until it leaves it. A
warm restart keeps E, the decoder pair, the last direction and the reference state, sets P to E and starts the rest as cold.
The model's, beside the rules: the volatile items cold at RESET_TAKEN and the part deaf until a cold reset (log entry 22, DESIGN
CHOICE), a torn ERASE_SLOT or LOCK_SLOT failing its check (entry 5, DEDUCED), the axes taken to OFF by WARM_RESTART from any state
(entry 10, DESIGN CHOICE), the V that a limit meets at 0 in a restart (entry 26, DEDUCED), the row WARM_RESTART without restart-pending changing nothing (entry 3) and the queue kept (entry
23). -/
def Obligations.Resets : Prop :=
  ∀ (s : State) (pins : Pins) (c : Instr) (x : Axis),
    let coldAxis (a : AxisUnit) : Prop := a.state = .off ∧ a.driveEnable = false ∧ a.brakeRelease = false ∧
      a.speedRef = 0 ∧ a.timer = none ∧ a.pending = none ∧ a.mode = none ∧ a.v = 0 ∧ a.tickV = 0 ∧ a.f = 0 ∧ a.leg = none ∧
      a.capture = none
    let cold (t : State) : Prop := t.comm.mode = .start ∧ t.comm.record = none ∧ t.comm.restartPending = false ∧
      coldAxis t.slew ∧ coldAxis t.rake ∧ t.env.slew = { lo := posMin, hi := posMax } ∧ t.env.travel = none ∧
      t.env.rakeHi = posMax ∧ t.zones.rows = [] ∧ t.peers = [] ∧ t.seq.state = .idle ∧ t.seq.layout = 0 ∧
      t.seq.step = 0 ∧ t.seq.phase = .none ∧ t.mon = { present := false, timer := none, run := .none } ∧
      t.bus.tx = .quiet ∧ t.bus.statusPending = false ∧ t.bus.place0 = .free ∧ t.bus.place1 = .free ∧
      t.bus.outcome = none ∧ t.bus.silence = .stopped ∧ t.fault.record = none ∧ t.fault.alsoSeen = [] ∧
      t.fault.drivesStop = false ∧ t.fault.notice = none ∧ t.fault.sentSinceSilence = false ∧
      t.store = { latch := false, job := none } ∧ t.pending = s.pending
    let unref (t : State) : Prop := (t.axis x).referenced = false ∧ (t.axis x).e = 0 ∧ (t.axis x).p = 0 ∧
      (t.axis x).lastDir = none
    (∃ t, exec (.coldReset pins) s = .next t ∧ cold t ∧ unref t ∧ t.inReset = false ∧ t.slew.chA = pins.slewA ∧
      t.slew.chB = pins.slewB ∧ t.rake.chA = pins.rakeA ∧ t.rake.chB = pins.rakeB ∧
      t.slew.negLimit = pins.slewNeg ∧ t.slew.posLimit = pins.slewPos ∧ t.rake.negLimit = pins.rakeNeg ∧
      t.rake.posLimit = pins.rakePos ∧ t.rake.refSwitch = pins.rakeSwitch ∧ t.chainOpen = pins.chainOpen ∧
      t.fault.lineAsserted = pins.stopLine ∧ (s.store.job = none → t.nv = s.nv) ∧
      (∀ j, s.store.job = some j → (∃ bs, j.op = .commit bs) → t.nv.recordTorn = true ∧ t.nv.slots = s.nv.slots) ∧
      (∀ j n sl, s.store.job = some j → j.op = .erase n ∨ j.op = .lock n → s.nv.slots[n - 1]? = some sl →
        ∃ sl', t.nv.slots[n - 1]? = some sl' ∧ sl'.passes = false)) ∧
    (∃ t, exec .resetTaken s = .next t ∧ cold t ∧ unref t ∧ t.inReset = true ∧ (s.store.job = none → t.nv = s.nv) ∧
      ((∀ p, c ≠ .coldReset p) → c ≠ .resetTaken → exec c t = .next t)) ∧
    (s.inReset = false → s.comm.restartPending = true → s.comm.mode ≠ .isolated →
      ∃ t, exec .warmRestart s = .next t ∧ cold t ∧ t.nv = s.nv ∧ (t.axis x).e = (s.axis x).e ∧
        (t.axis x).p = (s.axis x).e ∧ (t.axis x).chA = (s.axis x).chA ∧ (t.axis x).chB = (s.axis x).chB ∧
        (t.axis x).lastDir = (s.axis x).lastDir ∧ (t.axis x).referenced = (s.axis x).referenced ∧
        (t.axis x).negLimit = (s.axis x).negLimit ∧ (t.axis x).posLimit = (s.axis x).posLimit ∧
        t.chainOpen = s.chainOpen ∧ t.fault.lineAsserted = s.fault.lineAsserted ∧ t.comm.prior = s.comm.record) ∧
    (s.inReset = false → s.comm.restartPending = false → exec .warmRestart s = .next s)

/-- R178, R78, R105, R160, R186, R19, R51: START ends in OPERATIONAL with the stored record in force, fresh guard rows and UNHEARD zone
peers, when the straps are not 0, the CRC-16 is right and the range checks pass, and otherwise in UNCONFIGURED with none; the
slots that fail their check are BAD, with SLOT_BAD; after a warm restart an axis keeps its reference only with its geometry
unchanged; a chain found open takes both axes to FAULTED with E_STOP; a STOP line found ASSERTED is taken in OPERATIONAL as its
becoming so (R175), and orders nothing in UNCONFIGURED. In any other mode nothing happens. -/
def Obligations.StartEnds : Prop :=
  ∀ (s : State) (straps : BitVec 5) (x : Axis), s.inReset = false →
    let n := straps.toNat
    let bs := s.nv.record
    let good : Prop := n ≠ 0 ∧ s.nv.recordTorn = false ∧ bs.length = 154 ∧
      crc16 (bs.take 152) = join16 (bs.getD 152 0) (bs.getD 153 0) ∧ recordOk n bs = true
    let r := readRecord bs
    let slots := s.nv.slots.map (fun sl => { sl with bad := !sl.passes })
    (s.comm.mode ≠ .start → exec (.startEnd straps) s = .next s) ∧
    (s.comm.mode = .start → ∃ t, exec (.startEnd straps) s = .next t ∧ t.comm.straps = n ∧ t.comm.strapLevel = straps ∧
      t.nv = { s.nv with slots := slots } ∧ t.bus.nextDue = (if n = 0 then none else some 25) ∧
      t.bus.firstDue = false ∧ t.store = s.store ∧
      t.fault.notice = (if slots.any (·.bad) then some .slotBad else s.fault.notice) ∧
      (good → t.comm.mode = .operational ∧ t.comm.record = some r ∧
        t.zones.rows = r.zones.map (fun z =>
          { zone := z, guard := .free, waited := false, need := .none, window := none }) ∧
        (∀ k, (∃ o ∈ t.peers, o.station = k) ↔ k ∈ r.zones.flatMap (·.peers)) ∧
        (∀ o ∈ t.peers, o = { station := o.station, zoneRole := true, scriptRole := false, freshness := .unheard
                              age := none, status := none })) ∧
      (¬ good → t.comm.mode = .unconfigured ∧ t.comm.record = none ∧ t.zones.rows = [] ∧ t.peers = []) ∧
      (s.chainOpen = true → s.slew.faultedAt t.slew ∧ s.rake.faultedAt t.rake ∧ FaultKind.eStop ∈ t.fault.held) ∧
      (s.chainOpen = false → t.fault.record = s.fault.record ∧ t.fault.alsoSeen = s.fault.alsoSeen) ∧
      (s.chainOpen = false → s.fault.lineAsserted = false → s.comm.warm = false → t.axis x = s.axis x) ∧
      (s.chainOpen = false → s.fault.lineAsserted = false → s.comm.warm = true →
        (t.axis x).p = (s.axis x).e ∧ (t.axis x).v = 0) ∧
      (t.axis x).e = (s.axis x).e ∧ (t.axis x).lastDir = (s.axis x).lastDir ∧
      (s.comm.warm = false → (t.axis x).referenced = (s.axis x).referenced) ∧
      (s.comm.warm = true → ((t.axis x).referenced = true ↔ (s.axis x).referenced = true ∧ good ∧
        ∃ o, s.comm.prior = some o ∧ (o.axis x).geometry = (r.axis x).geometry)) ∧
      (s.chainOpen = false → s.fault.lineAsserted = true → good →
        t.fault.lineAsserted = true ∧ s.seq.endedFrom t.seq ∧ t.mon = { s.mon with run := .none } ∧
        (∀ c n, s.seq.state = .armed → s.seq.armed = some (c, n) →
          t.bus.outcome = some { console := c, tag := n, outcome := .refusedStopLine }) ∧
        (s.comm.warm = false → (s.axis x).stoppedBy .quick (t.axis x)) ∧
        ((s.axis x).state = .off → (t.axis x).state = .off ∧ (t.axis x).pending = none)) ∧
      (s.chainOpen = false → s.fault.lineAsserted = true → ¬ good →
        t.fault.lineAsserted = true ∧ t.seq = s.seq ∧ t.mon = s.mon ∧ t.bus.outcome = s.bus.outcome))

/-! ## Invariants that every step keeps -/

/-- R39, R53, R170: at every step the drive enable and brake-release outputs stay those of the axis state, and the speed reference
stays in range, 0 while the drive enable is off; and the STOP line stays driven exactly while a STOP_ALL kind is held, and sensed
ASSERTED while it is driven (R175). -/
def Obligations.OutputsKept : Prop :=
  ∀ s t : State, step s = .next t → (s.outputsOk → t.outputsOk) ∧ (s.lineDriveOk → t.lineDriveOk)

/-- R86, R104: every step keeps at most one row CLAIMING, and at most 8 peer records, at most one for a station. -/
def Obligations.TablesKept : Prop :=
  ∀ s t : State, step s = .next t → (s.oneClaim → t.oneClaim) ∧ (s.peerViewOk → t.peerViewOk)

/-- R183 to R185: every step keeps the law of the latch and the law that no operation works on a LOCKED slot, and under them leaves
every LOCKED slot with its contents: nothing unlocks one. -/
def Obligations.StoreLawsKept : Prop :=
  ∀ s t : State, s.latchOk → s.jobOk → step s = .next t →
    t.latchOk ∧ t.jobOk ∧
      ∀ (i : Nat) (sl : Slot), s.nv.slots[i]? = some sl → sl.state = .locked →
        ∃ sl', t.nv.slots[i]? = some sl' ∧ sl'.contents = sl.contents

/-- R22, R20: every step keeps the law of the axis velocity, with the speeds in force and pending, Vcreep and the velocity that the
last tick left within Vmax, and V equal to what that tick left or 0. -/
def Obligations.SpeedsKept : Prop := ∀ s t : State, s.speedsOk → step s = .next t → t.speedsOk

/-- R131: every step keeps the law of the step index, with what carries it (State.stepIndexOk). -/
def Obligations.StepIndexKept : Prop := ∀ s t : State, s.stepIndexOk → step s = .next t → t.stepIndexOk

/-- The state after reset meets each law that a statement here says every step keeps. -/
def Obligations.ResetMeetsLaws : Prop :=
  State.reset.outputsOk ∧ State.reset.lineDriveOk ∧ State.reset.oneClaim ∧ State.reset.latchOk ∧ State.reset.jobOk ∧
    State.reset.speedsOk ∧ State.reset.peerViewOk ∧ State.reset.stepIndexOk
end

