-- ==== Sys2Proof/Laws/State.lean ====
section
/-! SUPPORT. The fields of a state after each named update, one lemma a field: no later proof unfolds a record update. -/

namespace Sys2Proof.Machine

/-! ## One axis of the state changed -/

@[simp] theorem State.setAxis_axis (s : State) (x : Axis) (a : AxisUnit) : (s.setAxis x a).axis x = a := by
  cases x <;> rfl

@[simp] theorem State.setAxis_axis_other (s : State) (x : Axis) (a : AxisUnit) :
    (s.setAxis x a).axis (otherAxis x) = s.axis (otherAxis x) := by cases x <;> rfl

theorem State.setAxis_axis_ne (s : State) {x y : Axis} (a : AxisUnit) (h : y ≠ x) :
    (s.setAxis x a).axis y = s.axis y := by cases x <;> cases y <;> first | rfl | exact absurd rfl h

@[simp] theorem State.setAxis_pending (s : State) (x : Axis) (a : AxisUnit) : (s.setAxis x a).pending = s.pending := by
  cases x <;> rfl
@[simp] theorem State.setAxis_inReset (s : State) (x : Axis) (a : AxisUnit) : (s.setAxis x a).inReset = s.inReset := by
  cases x <;> rfl
@[simp] theorem State.setAxis_nv (s : State) (x : Axis) (a : AxisUnit) : (s.setAxis x a).nv = s.nv := by
  cases x <;> rfl
@[simp] theorem State.setAxis_comm (s : State) (x : Axis) (a : AxisUnit) : (s.setAxis x a).comm = s.comm := by
  cases x <;> rfl
@[simp] theorem State.setAxis_store (s : State) (x : Axis) (a : AxisUnit) : (s.setAxis x a).store = s.store := by
  cases x <;> rfl
@[simp] theorem State.setAxis_tickLeft (s : State) (x : Axis) (a : AxisUnit) :
    (s.setAxis x a).tickLeft = s.tickLeft := by cases x <;> rfl
@[simp] theorem State.setAxis_env (s : State) (x : Axis) (a : AxisUnit) : (s.setAxis x a).env = s.env := by
  cases x <;> rfl
@[simp] theorem State.setAxis_zones (s : State) (x : Axis) (a : AxisUnit) : (s.setAxis x a).zones = s.zones := by
  cases x <;> rfl
@[simp] theorem State.setAxis_peers (s : State) (x : Axis) (a : AxisUnit) : (s.setAxis x a).peers = s.peers := by
  cases x <;> rfl
@[simp] theorem State.setAxis_seq (s : State) (x : Axis) (a : AxisUnit) : (s.setAxis x a).seq = s.seq := by
  cases x <;> rfl
@[simp] theorem State.setAxis_mon (s : State) (x : Axis) (a : AxisUnit) : (s.setAxis x a).mon = s.mon := by
  cases x <;> rfl
@[simp] theorem State.setAxis_bus (s : State) (x : Axis) (a : AxisUnit) : (s.setAxis x a).bus = s.bus := by
  cases x <;> rfl
@[simp] theorem State.setAxis_fault (s : State) (x : Axis) (a : AxisUnit) : (s.setAxis x a).fault = s.fault := by
  cases x <;> rfl
@[simp] theorem State.setAxis_chainOpen (s : State) (x : Axis) (a : AxisUnit) :
    (s.setAxis x a).chainOpen = s.chainOpen := by cases x <;> rfl
@[simp] theorem State.setAxis_fresh (s : State) (x : Axis) (a : AxisUnit) : (s.setAxis x a).fresh = s.fresh := by
  cases x <;> rfl

@[simp] theorem State.setAxis_slew_slew (s : State) (a : AxisUnit) : (s.setAxis .slew a).slew = a := rfl
@[simp] theorem State.setAxis_slew_rake (s : State) (a : AxisUnit) : (s.setAxis .slew a).rake = s.rake := rfl
@[simp] theorem State.setAxis_rake_rake (s : State) (a : AxisUnit) : (s.setAxis .rake a).rake = a := rfl
@[simp] theorem State.setAxis_rake_slew (s : State) (a : AxisUnit) : (s.setAxis .rake a).slew = s.slew := rfl

@[simp] theorem State.axis_slew (s : State) : s.axis .slew = s.slew := rfl
@[simp] theorem State.axis_rake (s : State) : s.axis .rake = s.rake := rfl

@[simp] theorem State.setAxis_setAxis (s : State) (x : Axis) (a b : AxisUnit) :
    (s.setAxis x a).setAxis x b = s.setAxis x b := by cases x <;> rfl

@[simp] theorem State.setAxis_self (s : State) (x : Axis) : s.setAxis x (s.axis x) = s := by cases x <;> rfl

/-! ## An axis entering a state -/

@[simp] theorem AxisUnit.enter_state (a : AxisUnit) (st : AxisState) (t : Option Nat) : (a.enter st t).state = st := rfl
@[simp] theorem AxisUnit.enter_timer (a : AxisUnit) (st : AxisState) (t : Option Nat) : (a.enter st t).timer = t := rfl
@[simp] theorem AxisUnit.enter_driveEnable (a : AxisUnit) (st : AxisState) (t : Option Nat) :
    (a.enter st t).driveEnable = st.enables := rfl
@[simp] theorem AxisUnit.enter_brakeRelease (a : AxisUnit) (st : AxisState) (t : Option Nat) :
    (a.enter st t).brakeRelease = st.releases := rfl
@[simp] theorem AxisUnit.enter_e (a : AxisUnit) (st : AxisState) (t : Option Nat) : (a.enter st t).e = a.e := rfl
@[simp] theorem AxisUnit.enter_p (a : AxisUnit) (st : AxisState) (t : Option Nat) : (a.enter st t).p = a.p := rfl
@[simp] theorem AxisUnit.enter_f (a : AxisUnit) (st : AxisState) (t : Option Nat) : (a.enter st t).f = a.f := rfl
@[simp] theorem AxisUnit.enter_v (a : AxisUnit) (st : AxisState) (t : Option Nat) : (a.enter st t).v = a.v := rfl
@[simp] theorem AxisUnit.enter_mode (a : AxisUnit) (st : AxisState) (t : Option Nat) : (a.enter st t).mode = a.mode := rfl
@[simp] theorem AxisUnit.enter_requester (a : AxisUnit) (st : AxisState) (t : Option Nat) :
    (a.enter st t).requester = a.requester := rfl
@[simp] theorem AxisUnit.enter_pending (a : AxisUnit) (st : AxisState) (t : Option Nat) :
    (a.enter st t).pending = a.pending := rfl
@[simp] theorem AxisUnit.enter_speedRef (a : AxisUnit) (st : AxisState) (t : Option Nat) :
    (a.enter st t).speedRef = a.speedRef := rfl
@[simp] theorem AxisUnit.enter_referenced (a : AxisUnit) (st : AxisState) (t : Option Nat) :
    (a.enter st t).referenced = a.referenced := rfl
@[simp] theorem AxisUnit.enter_leg (a : AxisUnit) (st : AxisState) (t : Option Nat) : (a.enter st t).leg = a.leg := rfl

/-! ## End limits -/

@[simp] theorem AxisUnit.setLimit_same (a : AxisUnit) (d : Dir) (b : Bool) : (a.setLimit d b).limit d = b := by
  cases d <;> rfl

theorem AxisUnit.setLimit_other (a : AxisUnit) (d : Dir) (b : Bool) :
    (a.setLimit d b).limit (dirOpposite d) = a.limit (dirOpposite d) := by cases d <;> rfl

/-! ## Move states -/

@[simp] theorem Sequencer.setMove_move (q : Sequencer) (x : Axis) (m : MoveState) : (q.setMove x m).move x = m := by
  cases x <;> rfl

theorem Sequencer.setMove_move_other (q : Sequencer) (x : Axis) (m : MoveState) :
    (q.setMove x m).move (otherAxis x) = q.move (otherAxis x) := by cases x <;> rfl

@[simp] theorem Sequencer.setMove_state (q : Sequencer) (x : Axis) (m : MoveState) : (q.setMove x m).state = q.state := by
  cases x <;> rfl
@[simp] theorem Sequencer.setMove_phase (q : Sequencer) (x : Axis) (m : MoveState) : (q.setMove x m).phase = q.phase := by
  cases x <;> rfl
@[simp] theorem Sequencer.setMove_step (q : Sequencer) (x : Axis) (m : MoveState) : (q.setMove x m).step = q.step := by
  cases x <;> rfl
@[simp] theorem Sequencer.setMove_layout (q : Sequencer) (x : Axis) (m : MoveState) :
    (q.setMove x m).layout = q.layout := by cases x <;> rfl

end Sys2Proof.Machine
end

