-- ==== Sys2Proof/Laws/Calm.lean ====
section
/-! SUPPORT. What every shared operation keeps, said once. `Calm s t` says that going from `s` to `t` leaves alone what no shared
operation may change (the queue, the nonvolatile content, the envelopes, the counts and the inputs of both axes, the record in
force, a running store operation, who has a peer record) and keeps each of the laws of Safety.lean. It composes, and every shared
operation below the meanings is calm. -/

namespace Sys2Proof.Machine

/-! ## What an operation on an axis leaves alone -/

/-- What motion never changes of an axis: count, decoder pair, capture record, inputs, PWM output. -/
structure AxisUnit.Same (a b : AxisUnit) : Prop where
  e : b.e = a.e
  chA : b.chA = a.chA
  chB : b.chB = a.chB
  lastDir : b.lastDir = a.lastDir
  capture : b.capture = a.capture
  negLimit : b.negLimit = a.negLimit
  posLimit : b.posLimit = a.posLimit
  pwm : b.pwm = a.pwm
  ready : b.ready = a.ready
  refSwitch : b.refSwitch = a.refSwitch

theorem AxisUnit.Same.refl (a : AxisUnit) : a.Same a := ⟨rfl, rfl, rfl, rfl, rfl, rfl, rfl, rfl, rfl, rfl⟩

theorem AxisUnit.Same.trans {a b c : AxisUnit} (h : a.Same b) (k : b.Same c) : a.Same c :=
  ⟨k.e.trans h.e, k.chA.trans h.chA, k.chB.trans h.chB, k.lastDir.trans h.lastDir, k.capture.trans h.capture,
    k.negLimit.trans h.negLimit, k.posLimit.trans h.posLimit, k.pwm.trans h.pwm, k.ready.trans h.ready,
    k.refSwitch.trans h.refSwitch⟩

/-- An axis changed in the calm way under parameters `p`: `Same`, and its laws kept. -/
structure AxisUnit.Calm (p : AxisParams) (a b : AxisUnit) : Prop where
  same : a.Same b
  outputs : a.outputsOk → b.outputsOk
  speed : a.speedOk p → b.speedOk p

theorem AxisUnit.Calm.refl (p : AxisParams) (a : AxisUnit) : AxisUnit.Calm p a a := ⟨.refl a, id, id⟩

theorem AxisUnit.Calm.trans {p : AxisParams} {a b c : AxisUnit} (h : AxisUnit.Calm p a b) (k : AxisUnit.Calm p b c) :
    AxisUnit.Calm p a c :=
  ⟨h.same.trans k.same, fun o => k.outputs (h.outputs o), fun o => k.speed (h.speed o)⟩

/-! ## Calm steps of the state -/

structure Calm (s t : State) : Prop where
  pending : t.pending = s.pending
  inReset : t.inReset = s.inReset
  nv : t.nv = s.nv
  record : t.comm.record = s.comm.record
  straps : t.comm.straps = s.comm.straps
  mode : t.comm.mode = s.comm.mode ∨ t.comm.mode = .isolated
  job : t.store.job = s.store.job
  tickLeft : t.tickLeft = s.tickLeft
  env : t.env = s.env
  chainOpen : t.chainOpen = s.chainOpen
  fresh : t.fresh = s.fresh
  slew : AxisUnit.Calm (s.params .slew) s.slew t.slew
  rake : AxisUnit.Calm (s.params .rake) s.rake t.rake
  line : s.lineDriveOk → t.lineDriveOk
  latch : s.latchOk → t.latchOk
  claim : s.oneClaim → t.oneClaim
  peers : (t.peers.map (·.station)).Sublist (s.peers.map (·.station))

theorem Calm.refl (s : State) : Calm s s :=
  ⟨rfl, rfl, rfl, rfl, rfl, .inl rfl, rfl, rfl, rfl, rfl, rfl, .refl _ _, .refl _ _, id, id, id, .refl _⟩

theorem Calm.trans {s t u : State} (h : Calm s t) (k : Calm t u) : Calm s u where
  pending := k.pending.trans h.pending
  inReset := k.inReset.trans h.inReset
  nv := k.nv.trans h.nv
  record := k.record.trans h.record
  straps := k.straps.trans h.straps
  mode := k.mode.elim (fun e => e ▸ h.mode) .inr
  job := k.job.trans h.job
  tickLeft := k.tickLeft.trans h.tickLeft
  env := k.env.trans h.env
  chainOpen := k.chainOpen.trans h.chainOpen
  fresh := k.fresh.trans h.fresh
  slew := h.slew.trans (by have e := k.slew; unfold State.params at e ⊢; rwa [h.record] at e)
  rake := h.rake.trans (by have e := k.rake; unfold State.params at e ⊢; rwa [h.record] at e)
  line o := k.line (h.line o)
  latch o := k.latch (h.latch o)
  claim o := k.claim (h.claim o)
  peers := k.peers.trans h.peers

theorem Calm.axis {s t : State} (h : Calm s t) (x : Axis) : AxisUnit.Calm (s.params x) (s.axis x) (t.axis x) := by
  cases x
  · exact h.slew
  · exact h.rake

theorem Calm.params {s t : State} (h : Calm s t) (x : Axis) : t.params x = s.params x := by
  unfold State.params; rw [h.record]

theorem Calm.outputsOk {s t : State} (h : Calm s t) (o : s.outputsOk) : t.outputsOk :=
  ⟨h.slew.outputs o.1, h.rake.outputs o.2⟩

theorem Calm.speedsOk {s t : State} (h : Calm s t) (o : s.speedsOk) : t.speedsOk := by
  refine ⟨?_, ?_, ?_⟩
  · rw [h.params]; exact h.slew.speed o.1
  · rw [h.params]; exact h.rake.speed o.2.1
  · intro m
    rw [h.record]
    rcases h.mode with e | e
    · exact o.2.2 (e ▸ m)
    · rw [m] at e; cases e

theorem Calm.peerViewOk {s t : State} (h : Calm s t) (o : s.peerViewOk) : t.peerViewOk := by
  have l := h.peers.length_le
  simp only [List.length_map] at l
  exact ⟨l.trans o.1, h.peers.nodup o.2⟩

theorem Calm.jobOk {s t : State} (h : Calm s t) (o : s.jobOk) : t.jobOk := by
  intro j hj
  rw [h.job] at hj
  obtain ⟨m, k⟩ := o j hj
  refine ⟨?_, ?_⟩
  · rcases h.mode with e | e <;> rw [e]
    · exact m
    · simp
  · rw [h.nv]; exact k

/-! ## Calm updates of one part -/

theorem Calm.ofBus (s : State) (b : Bus) : Calm s { s with bus := b } :=
  ⟨rfl, rfl, rfl, rfl, rfl, .inl rfl, rfl, rfl, rfl, rfl, rfl, .refl _ _, .refl _ _, id, id, id, .refl _⟩

theorem Calm.ofSeq (s : State) (q : Sequencer) : Calm s { s with seq := q } :=
  ⟨rfl, rfl, rfl, rfl, rfl, .inl rfl, rfl, rfl, rfl, rfl, rfl, .refl _ _, .refl _ _, id, id, id, .refl _⟩

theorem Calm.ofMon (s : State) (m : EnableMonitor) : Calm s { s with mon := m } :=
  ⟨rfl, rfl, rfl, rfl, rfl, .inl rfl, rfl, rfl, rfl, rfl, rfl, .refl _ _, .refl _ _, id, id, id, .refl _⟩

theorem Calm.ofFault (s : State) (f : FaultUnit) (h : s.lineDriveOk →
    f.drivesStop = f.held.any FaultKind.stopAll ∧ (f.drivesStop = true → f.lineAsserted = true)) :
    Calm s { s with fault := f } :=
  ⟨rfl, rfl, rfl, rfl, rfl, .inl rfl, rfl, rfl, rfl, rfl, rfl, .refl _ _, .refl _ _, h, id, id, .refl _⟩

theorem Calm.ofZones (s : State) (z : ZoneGuard) (h : s.oneClaim → z.claims ≤ 1) : Calm s { s with zones := z } :=
  ⟨rfl, rfl, rfl, rfl, rfl, .inl rfl, rfl, rfl, rfl, rfl, rfl, .refl _ _, .refl _ _, id, id, h, .refl _⟩

theorem Calm.ofPeers (s : State) (ps : List PeerRecord)
    (h : (ps.map (·.station)).Sublist (s.peers.map (·.station))) : Calm s { s with peers := ps } :=
  ⟨rfl, rfl, rfl, rfl, rfl, .inl rfl, rfl, rfl, rfl, rfl, rfl, .refl _ _, .refl _ _, id, id, id, h⟩

theorem Calm.ofSeqPeers (s : State) (q : Sequencer) (ps : List PeerRecord)
    (h : (ps.map (·.station)).Sublist (s.peers.map (·.station))) : Calm s { s with seq := q, peers := ps } :=
  ⟨rfl, rfl, rfl, rfl, rfl, .inl rfl, rfl, rfl, rfl, rfl, rfl, .refl _ _, .refl _ _, id, id, id, h⟩

theorem Calm.ofAxis (s : State) (x : Axis) (a : AxisUnit) (h : AxisUnit.Calm (s.params x) (s.axis x) a) : Calm s (s.setAxis x a) := by
  cases x
  · exact ⟨rfl, rfl, rfl, rfl, rfl, .inl rfl, rfl, rfl, rfl, rfl, rfl, h, .refl _ _, id, id, id, .refl _⟩
  · exact ⟨rfl, rfl, rfl, rfl, rfl, .inl rfl, rfl, rfl, rfl, rfl, rfl, .refl _ _, h, id, id, id, .refl _⟩

end Sys2Proof.Machine
end

