-- ==== Sys2Proof/Laws/Motion.lean ====
section
/-! SUPPORT. The shared operations of Ops.lean, Motion.lean and Endings.lean are calm. -/

namespace Sys2Proof.Machine

/-! ## Axes -/

/-- Into an axis state with the speed reference kept or zero and the profile's motion kept, dropped or slowed: calm when the
reference is 0 in a state without drive, and mode, V and pending request stay or go. -/
theorem AxisUnit.Calm.entering {p : AxisParams} {a b : AxisUnit} (st : AxisState) (same : a.Same b) (hst : b.state = st)
    (hd : b.driveEnable = st.enables) (hb : b.brakeRelease = st.releases)
    (href : b.speedRef = 0 ∨ (b.speedRef = a.speedRef ∧ st.enables = true))
    (hv : b.v = a.v ∨ b.v = 0) (hm : b.mode = a.mode ∨ b.mode = none)
    (hp : b.pending = a.pending ∨ b.pending = none) (ht : b.tickV = a.tickV := by rfl) : AxisUnit.Calm p a b := by
  refine ⟨same, ?_, ?_⟩
  · rintro ⟨-, -, h3, h4, -⟩
    refine ⟨by rw [hd, hst], by rw [hb, hst], ?_⟩
    rcases href with e | ⟨e, en⟩
    · simp [e]
    · rw [hd, en, e]; exact ⟨h3, h4, by simp⟩
  · rintro ⟨h1, h2, h3, h4, h5, h6⟩
    refine ⟨?_, ?_, ?_, h4, by rw [ht]; exact h5, ?_⟩
    · rcases hv with e | e <;> simp [e, h1]
    · rcases hm with e | e
      · rw [e]; exact h2
      · simp [e]
    · rcases hp with e | e
      · rw [e]; exact h3
      · simp [e]
    · rw [ht]; exact hv.elim (fun e => e ▸ h6) .inr

/-- A change that touches neither outputs nor motion. -/
theorem AxisUnit.Calm.aside {p : AxisParams} {a b : AxisUnit} (same : a.Same b) (hst : b.state = a.state)
    (hd : b.driveEnable = a.driveEnable) (hb : b.brakeRelease = a.brakeRelease) (hr : b.speedRef = a.speedRef)
    (hv : b.v = a.v) (hm : b.mode = a.mode) (hp : b.pending = a.pending ∨ b.pending = none)
    (ht : b.tickV = a.tickV := by rfl) : AxisUnit.Calm p a b := by
  refine ⟨same, ?_, ?_⟩
  · unfold AxisUnit.outputsOk; rw [hst, hd, hb, hr]; exact id
  · rintro ⟨h1, h2, h3, h4, h5, h6⟩
    refine ⟨by rw [hv]; exact h1, by rw [hm]; exact h2, ?_, h4, by rw [ht]; exact h5, by rw [hv, ht]; exact h6⟩
    rcases hp with e | e
    · rw [e]; exact h3
    · simp [e]

theorem AxisUnit.toOff_calm (p : AxisParams) (a : AxisUnit) : AxisUnit.Calm p a a.toOff :=
  .entering .off ⟨rfl, rfl, rfl, rfl, rfl, rfl, rfl, rfl, rfl, rfl⟩ rfl rfl rfl (.inl rfl) (.inr rfl) (.inr rfl) (.inl rfl)

theorem AxisUnit.toFaulted_calm (p : AxisParams) (a : AxisUnit) : AxisUnit.Calm p a a.toFaulted :=
  .entering .faulted ⟨rfl, rfl, rfl, rfl, rfl, rfl, rfl, rfl, rfl, rfl⟩ rfl rfl rfl (.inl rfl) (.inr rfl) (.inr rfl)
    (.inr rfl)

theorem AxisUnit.toSettling_calm (p : AxisParams) (n : Nat) (a : AxisUnit) : AxisUnit.Calm p a (a.toSettling n) := by
  unfold AxisUnit.toSettling
  split
  · exact a.toOff_calm p
  · exact .entering .settling ⟨rfl, rfl, rfl, rfl, rfl, rfl, rfl, rfl, rfl, rfl⟩ rfl rfl rfl (.inl rfl) (.inr rfl) (.inr rfl)
      (.inl rfl)

theorem AxisUnit.toHold_calm (p : AxisParams) (n : Nat) (a : AxisUnit) : AxisUnit.Calm p a (a.toHold n) :=
  .entering (.tracking true) ⟨rfl, rfl, rfl, rfl, rfl, rfl, rfl, rfl, rfl, rfl⟩ rfl rfl rfl (.inr ⟨rfl, rfl⟩) (.inr rfl)
    (.inr rfl) (.inl rfl)

theorem AxisUnit.dropPending_calm (p : AxisParams) (a : AxisUnit) : AxisUnit.Calm p a { a with pending := none } :=
  .aside ⟨rfl, rfl, rfl, rfl, rfl, rfl, rfl, rfl, rfl, rfl⟩ rfl rfl rfl rfl rfl rfl (.inr rfl)

theorem AxisUnit.setLeg_calm (p : AxisParams) (a : AxisUnit) (l : Option Leg) (m : Bool) : AxisUnit.Calm p a { a with leg := l, metLimit := m } :=
  .aside ⟨rfl, rfl, rfl, rfl, rfl, rfl, rfl, rfl, rfl, rfl⟩ rfl rfl rfl rfl rfl rfl (.inl rfl)

theorem AxisUnit.setReferenced_calm (p : AxisParams) (a : AxisUnit) (r : Bool) : AxisUnit.Calm p a { a with referenced := r } :=
  .aside ⟨rfl, rfl, rfl, rfl, rfl, rfl, rfl, rfl, rfl, rfl⟩ rfl rfl rfl rfl rfl rfl (.inl rfl)

/-- Into STOPPING from a state with the brake lifted and the drive on. -/
theorem AxisUnit.stopping_calm (p : AxisParams) (a : AxisUnit) (k : StopKind) :
    AxisUnit.Calm p a { a.enter (.stopping k) none with mode := none, requester := none } :=
  .entering (.stopping k) ⟨rfl, rfl, rfl, rfl, rfl, rfl, rfl, rfl, rfl, rfl⟩ rfl rfl rfl (.inr ⟨rfl, rfl⟩) (.inl rfl)
    (.inr rfl) (.inl rfl)

/-! ## Ops -/

theorem State.requestStatus_calm (s : State) : Calm s s.requestStatus := by
  unfold State.requestStatus
  exact .ofBus s _

@[simp] theorem State.requestStatus_pending (s : State) : s.requestStatus.bus.statusPending = true := by
  simp only [State.requestStatus, Bus.startSilence]
  repeat' split
  all_goals rfl

/-- A request for a status touches the pending flag and the silence timer alone. -/
theorem State.requestStatus_bus (s : State) :
    s.requestStatus.bus = { s.bus with
      statusPending := s.requestStatus.bus.statusPending, silence := s.requestStatus.bus.silence } := by
  simp only [State.requestStatus, Bus.startSilence]
  repeat' split
  all_goals rfl

/-- A request for a status touches the bus interface alone. -/
theorem State.requestStatus_eq (s : State) : s.requestStatus = { s with bus := s.requestStatus.bus } := by
  rfl

theorem State.giveOutcome_calm (s : State) (c t : Nat) (o : CmdOutcome) : Calm s (s.giveOutcome c t o) :=
  (Calm.ofBus s _).trans (State.requestStatus_calm _)

/-- The outcome given is in the last-outcome slot (R165). -/
theorem State.giveOutcome_outcome (s : State) (c t : Nat) (o : CmdOutcome) :
    (s.giveOutcome c t o).bus.outcome = some { console := c, tag := t, outcome := o } := by
  unfold State.giveOutcome
  rw [State.requestStatus_bus]

/-- An outcome touches the bus interface alone. -/
theorem State.giveOutcome_eq (s : State) (c t : Nat) (o : CmdOutcome) :
    s.giveOutcome c t o = { s with bus := (s.giveOutcome c t o).bus } := by
  unfold State.giveOutcome
  rw [State.requestStatus_eq]

theorem State.raiseNotice_calm (s : State) (n : Notice) : Calm s (s.raiseNotice n) := .ofFault s _ fun h => h

theorem State.setReferenced_calm (s : State) (x : Axis) (r : Bool) : Calm s (s.setReferenced x r) := by
  unfold State.setReferenced
  split
  · exact .refl s
  · exact (Calm.ofAxis s x _ (AxisUnit.setReferenced_calm _ _ r)).trans (State.requestStatus_calm _)

/-- R8: the reference state is the one set. -/
theorem State.setReferenced_referenced (s : State) (x : Axis) (r : Bool) : ((s.setReferenced x r).axis x).referenced = r := by
  unfold State.setReferenced
  split
  · assumption
  · rw [State.requestStatus_eq]; cases x <;> rfl

theorem State.judgeZoneWait_calm (s : State) : Calm s s.judgeZoneWait := by
  unfold State.judgeZoneWait
  split
  · exact .refl s
  · exact .ofZones s _ fun h => h

/-! ## Motion -/

theorem State.tellStopped_calm (s : State) (x : Axis) (q : Option Requester) : Calm s (s.tellStopped x q) := by
  match q with
  | none => exact .refl s
  | some .sequencer =>
    simp only [State.tellStopped]
    split
    · exact .ofSeq s _
    · exact .refl s
  | some .enableMonitor =>
    simp only [State.tellStopped]
    split
    · split
      · exact .ofMon s _
      · exact .refl s
    · exact .refl s
  | some .positionUnit =>
    simp only [State.tellStopped]
    split
    · exact .refl s
    · have h := Calm.ofAxis s x { s.axis x with leg := none } (AxisUnit.setLeg_calm _ _ _ _)
      split
      · exact h.trans (.ofMon _ _)
      · exact h

theorem State.stopEnded_calm (s : State) (x : Axis) : Calm s (s.stopEnded x) := by
  unfold State.stopEnded
  split
  · have h := Calm.ofAxis s x { s.axis x with leg := none } (AxisUnit.setLeg_calm _ _ _ _)
    simp only
    split
    · exact h.trans (.ofMon _ _)
    · exact h
  · exact .refl s

theorem State.stopAxis_calm (s : State) (x : Axis) (k : StopKind) : Calm s (s.stopAxis x k) := by
  have drop := Calm.ofAxis s x { s.axis x with pending := none } (AxisUnit.dropPending_calm _ _)
  have rest : Calm s
      (((s.setAxis x { s.axis x with pending := none }).tellStopped x (s.axis x).pendingAsker).stopEnded x) :=
    drop.trans ((State.tellStopped_calm _ _ _).trans (State.stopEnded_calm _ _))
  unfold State.stopAxis
  simp only
  split
  · exact (Calm.ofAxis s x _ (AxisUnit.stopping_calm _ _ k)).trans (State.tellStopped_calm _ _ _)
  · next k0 hk =>
    refine (Calm.ofAxis s x _ ?_).trans (State.tellStopped_calm _ _ _)
    refine ⟨⟨rfl, rfl, rfl, rfl, rfl, rfl, rfl, rfl, rfl, rfl⟩, ?_, ?_⟩
    · unfold AxisUnit.outputsOk
      rw [hk]; exact id
    · rintro ⟨h1, h2, -, h4⟩
      exact ⟨h1, h2, by simp, h4⟩
  · refine (Calm.ofAxis s x _ ?_).trans ((State.tellStopped_calm _ _ _).trans (State.stopEnded_calm _ _))
    exact (AxisUnit.toOff_calm _ _).trans (AxisUnit.dropPending_calm _ _)
  · refine (Calm.ofAxis s x _ ?_).trans ((State.tellStopped_calm _ _ _).trans (State.stopEnded_calm _ _))
    exact (AxisUnit.toSettling_calm _ _ _).trans (AxisUnit.dropPending_calm _ _)
  · exact rest
  · exact rest
  · exact rest
  · exact rest

theorem State.stopBoth_calm (s : State) (k : StopKind) : Calm s (s.stopBoth k) :=
  (State.stopAxis_calm _ _ _).trans (State.stopAxis_calm _ _ _)

theorem State.faultAxis_calm (s : State) (x : Axis) : Calm s (s.faultAxis x) :=
  (Calm.ofAxis s x _ (AxisUnit.toFaulted_calm _ _)).trans
    ((State.tellStopped_calm _ _ _).trans (State.tellStopped_calm _ _ _))

/-! ## Endings -/

theorem dropScript_stations (ps : List PeerRecord) :
    ((dropScript ps).map (·.station)).Sublist (ps.map (·.station)) := by
  unfold dropScript
  rw [List.map_map]
  exact List.filter_sublist.map _

theorem State.seqToIdle_calm (s : State) : Calm s s.seqToIdle :=
  (Calm.ofSeqPeers s _ _ (dropScript_stations _)).trans (State.requestStatus_calm _)

theorem State.seqToAborted_calm (s : State) : Calm s s.seqToAborted :=
  ((Calm.ofSeqPeers s _ _ (dropScript_stations _)).trans (State.requestStatus_calm _)).trans
    (State.judgeZoneWait_calm _)

theorem State.endConversion_calm (s : State) (o : Option CmdOutcome) : Calm s (s.endConversion o) := by
  unfold State.endConversion
  split
  · exact s.seqToAborted_calm
  · exact s.seqToAborted_calm
  · split
    · exact s.seqToIdle_calm.trans (State.giveOutcome_calm _ _ _ _)
    · exact s.seqToIdle_calm
  · exact .refl s
  · exact .refl s
  · exact .refl s

theorem State.endRun_calm (s : State) : Calm s s.endRun := by
  unfold State.endRun
  split
  · exact .refl s
  · exact .ofMon s _
  · exact (Calm.ofMon s _).trans (.ofAxis _ _ _ (by exact AxisUnit.setLeg_calm _ _ _ _))

theorem GuardRow.dropClaim_claiming (r : GuardRow) : r.dropClaim.guard ≠ .claiming := by
  unfold GuardRow.dropClaim
  split <;> simp_all

theorem ZoneGuard.dropClaims_claims (z : ZoneGuard) : z.dropClaims.claims = 0 := by
  simp [ZoneGuard.claims, ZoneGuard.dropClaims, List.countP_eq_zero, GuardRow.dropClaim_claiming]

theorem State.enterIsolated_calm (s : State) : Calm s s.enterIsolated :=
  ⟨rfl, rfl, rfl, rfl, rfl, .inr rfl, rfl, rfl, rfl, rfl, rfl, .refl _ _, .refl _ _, id, fun _ h => Bool.noConfusion h,
    fun _ => (by simp [State.oneClaim, State.enterIsolated, ZoneGuard.dropClaims_claims]), .refl _⟩

end Sys2Proof.Machine
end

