-- ==== Sys2Proof/Laws/Faults.lean ====
section
/-! SUPPORT. The fault unit's operations (Faults.lean): they are calm, a report latches its kind, and what a report leaves of the
axes. -/

namespace Sys2Proof.Machine

theorem mem_insertKind (k j : FaultKind) (ks : List FaultKind) : j ∈ insertKind k ks → j = k ∨ j ∈ ks := by
  induction ks with
  | nil => simp [insertKind]
  | cons i is ih =>
    unfold insertKind
    split
    · simp
    · split
      · exact .inr
      · simp only [List.mem_cons]
        rintro (h | h)
        · exact .inr (.inl h)
        · rcases ih h with e | e
          · exact .inl e
          · exact .inr (.inr e)

theorem FaultKind.code_inj {j k : FaultKind} (h : j.code = k.code) : j = k := by
  cases j <;> cases k <;> first | rfl | exact absurd h (by decide)

theorem insertKind_self (k : FaultKind) (ks : List FaultKind) : k ∈ insertKind k ks := by
  induction ks with
  | nil => simp [insertKind]
  | cons i is ih =>
    unfold insertKind
    split
    · simp
    · split
      · next h => rw [FaultKind.code_inj h]; simp
      · exact List.mem_cons_of_mem _ ih

theorem insertKind_keeps (k j : FaultKind) (ks : List FaultKind) (h : j ∈ ks) : j ∈ insertKind k ks := by
  induction ks with
  | nil => cases h
  | cons i is ih =>
    unfold insertKind
    split
    · exact List.mem_cons_of_mem _ h
    · split
      · exact h
      · rcases List.mem_cons.mp h with e | e
        · rw [e]; simp
        · exact List.mem_cons_of_mem _ (ih e)

/-- The set after a kind is added holds that kind and what it held. -/
theorem mem_insertKind_iff (k j : FaultKind) (ks : List FaultKind) : j ∈ insertKind k ks ↔ j = k ∨ j ∈ ks :=
  ⟨mem_insertKind k j ks, fun h => h.elim (fun e => e ▸ insertKind_self k ks) (insertKind_keeps k j ks)⟩

/-- The line is driven exactly while a STOP_ALL kind is held, and then sensed ASSERTED (R170, R175). -/
theorem FaultUnit.withDrive_ok (f : FaultUnit) :
    f.withDrive.drivesStop = f.withDrive.held.any FaultKind.stopAll ∧
      (f.withDrive.drivesStop = true → f.withDrive.lineAsserted = true) :=
  ⟨rfl, fun h => by rw [FaultUnit.withDrive] at h ⊢; simp_all⟩

/-- Latching keeps the law of the line. -/
theorem State.latch_calm (s : State) (k : FaultKind) (f : FaultFields) : Calm s (s.latch k f) := by
  unfold State.latch
  split
  · exact (Calm.ofFault s _ fun _ => FaultUnit.withDrive_ok _).trans (State.requestStatus_calm _)
  · split
    · exact .refl s
    · exact (Calm.ofFault s _ fun _ => FaultUnit.withDrive_ok _).trans (State.requestStatus_calm _)

/-- A reported kind is held (R167). -/
theorem State.latch_held (s : State) (k : FaultKind) (f : FaultFields) : k ∈ (s.latch k f).fault.held := by
  unfold State.latch
  split
  · rw [State.requestStatus_eq]; simp [FaultUnit.held, FaultUnit.withDrive]
  · next r hr =>
    split
    · next h =>
      simp only [FaultUnit.held, hr, List.mem_cons]
      exact h.imp Eq.symm id
    · rw [State.requestStatus_eq]
      simp [FaultUnit.held, FaultUnit.withDrive, hr, insertKind_self]

theorem State.clearSent_calm (s : State) (k : FaultKind) : Calm s (s.clearSent k) := by
  unfold State.clearSent
  split
  · exact .ofFault s _ fun h => h
  · exact .refl s

theorem State.faultReactions_calm (s : State) (k : FaultKind) : Calm s (s.faultReactions k) := by
  have h := ((State.stopBoth_calm s .quick).trans (State.endConversion_calm _ (some .refusedFault))).trans
    (State.endRun_calm _)
  unfold State.faultReactions
  simp only
  split
  · exact h.trans (State.enterIsolated_calm _)
  · exact h

theorem State.lineReactions_calm (s : State) : Calm s s.lineReactions :=
  ((State.stopBoth_calm s .quick).trans (State.endConversion_calm _ _)).trans (State.endRun_calm _)

theorem State.senseOwn_calm (s : State) (b : Bool) : Calm s (s.senseOwn b) := by
  unfold State.senseOwn
  split
  · exact State.lineReactions_calm s
  · exact .refl s

theorem State.report_calm (s : State) (k : FaultKind) (f : FaultFields) : Calm s (s.report k f) :=
  (((State.latch_calm s k f).trans (State.clearSent_calm _ k)).trans (State.faultReactions_calm _ k)).trans
    (State.senseOwn_calm _ _)

theorem State.chainOpened_calm (s : State) : Calm s s.chainOpened :=
  ((State.faultAxis_calm s .rake).trans (State.faultAxis_calm _ .slew)).trans (State.report_calm _ _ _)

/-! ## What motion, conversions and runs leave of the fault unit -/

theorem State.tellStopped_fault (s : State) (x : Axis) (q : Option Requester) : (s.tellStopped x q).fault = s.fault := by
  match q with
  | none => rfl
  | some .sequencer => simp only [State.tellStopped]; split <;> rfl
  | some .enableMonitor => simp only [State.tellStopped]; split <;> (try split) <;> rfl
  | some .positionUnit => simp only [State.tellStopped]; split <;> (try split) <;> simp

theorem State.stopEnded_fault (s : State) (x : Axis) : (s.stopEnded x).fault = s.fault := by
  unfold State.stopEnded; split <;> (try simp only) <;> (try split) <;> simp

theorem State.stopAxis_fault (s : State) (x : Axis) (k : StopKind) : (s.stopAxis x k).fault = s.fault := by
  unfold State.stopAxis
  simp only
  split <;> simp [State.tellStopped_fault, State.stopEnded_fault]

theorem State.stopBoth_fault (s : State) (k : StopKind) : (s.stopBoth k).fault = s.fault := by
  simp [State.stopBoth, State.stopAxis_fault]

theorem State.faultAxis_fault (s : State) (x : Axis) : (s.faultAxis x).fault = s.fault := by
  simp [State.faultAxis, State.tellStopped_fault]

theorem State.requestStatus_fault (s : State) : s.requestStatus.fault = s.fault := by rw [State.requestStatus_eq]

theorem State.giveOutcome_fault (s : State) (c t : Nat) (o : CmdOutcome) : (s.giveOutcome c t o).fault = s.fault := by
  rw [State.giveOutcome_eq]

theorem State.judgeZoneWait_fault (s : State) : s.judgeZoneWait.fault = s.fault := by
  unfold State.judgeZoneWait; split <;> rfl

theorem State.endConversion_fault (s : State) (o : Option CmdOutcome) : (s.endConversion o).fault = s.fault := by
  unfold State.endConversion
  split
  · simp [State.seqToAborted, State.judgeZoneWait_fault, State.requestStatus_fault]
  · simp [State.seqToAborted, State.judgeZoneWait_fault, State.requestStatus_fault]
  · split <;> simp [State.giveOutcome_fault, State.seqToIdle, State.requestStatus_fault]
  · rfl
  · rfl
  · rfl

theorem State.endRun_fault (s : State) : s.endRun.fault = s.fault := by
  unfold State.endRun; split <;> simp

theorem State.faultReactions_fault (s : State) (k : FaultKind) : (s.faultReactions k).fault = s.fault := by
  unfold State.faultReactions
  simp only
  split <;> simp [State.enterIsolated, State.leaveCommission, State.endRun_fault, State.endConversion_fault,
    State.stopBoth_fault]

theorem State.senseOwn_fault (s : State) (b : Bool) : (s.senseOwn b).fault = s.fault := by
  unfold State.senseOwn
  split
  · simp [State.lineReactions, State.endRun_fault, State.endConversion_fault, State.stopBoth_fault]
  · rfl

/-- The reactions of a report leave the fault unit as the latching did (R169, R170). -/
theorem State.report_fault (s : State) (k : FaultKind) (f : FaultFields) :
    (s.report k f).fault = ((s.latch k f).clearSent k).fault := by
  unfold State.report
  rw [State.senseOwn_fault, State.faultReactions_fault]

theorem State.clearSent_held (s : State) (k : FaultKind) : (s.clearSent k).fault.held = s.fault.held := by
  unfold State.clearSent; split <;> rfl

/-- A reported kind is held after its report (R167). -/
theorem State.report_held (s : State) (k : FaultKind) (f : FaultFields) : k ∈ (s.report k f).fault.held := by
  rw [State.report_fault, State.clearSent_held]
  exact State.latch_held s k f

end Sys2Proof.Machine
end

