-- ==== Sys2Proof/Laws/Line.lean ====
section
/-! SUPPORT. The transmitter's part in a line event (Receiver.lean): its operations are calm, they act only while the station is
SENDING, and what a frame read back to its end and a bit read otherwise leave (R158, R159, R161); and what an ended frame leaves of
the receiver (R155). -/

namespace Sys2Proof.Machine

/-! ## Calm -/

theorem State.requeue_calm (s : State) (src : TxSource) : Calm s (s.requeue src) := by
  cases src
  · exact State.requestStatus_calm s
  · exact .refl s

theorem State.compareBit_calm (s : State) (level : Bool) : Calm s (s.compareBit level) := by
  unfold State.compareBit
  split
  · exact .refl s
  · split
    · exact .ofBus s _
    · exact (Calm.ofBus s _).trans (State.requeue_calm _ _)

theorem State.readBack_calm (s : State) (e : LineEvent) : Calm s (s.readBack e) := by
  cases e with
  | edge _ => exact .refl s
  | sample l => exact State.compareBit_calm s l
  | recessive n =>
    simp only [State.readBack]
    split
    · exact State.compareBit_calm s true
    · exact .refl s

theorem State.frameSent_calm (s : State) (src : TxSource) : Calm s (s.frameSent src) :=
  (Calm.ofFault s { s.fault with sentSinceSilence := true } id).trans (.ofBus _ _)

theorem State.checkSent_calm (s : State) : Calm s s.checkSent := by
  unfold State.checkSent
  split
  · exact .refl s
  · split
    · exact State.frameSent_calm s _
    · exact .refl s

/-! ## A quiet transmitter compares nothing -/

theorem State.compareBit_quiet {s : State} (h : s.bus.tx = .quiet) (level : Bool) : s.compareBit level = s := by
  unfold State.compareBit; rw [h]

theorem State.readBack_quiet {s : State} (h : s.bus.tx = .quiet) (e : LineEvent) : s.readBack e = s := by
  cases e with
  | edge _ => rfl
  | sample l => exact State.compareBit_quiet h l
  | recessive n => simp [State.readBack, State.compareBit_quiet h]

theorem State.checkSent_quiet {s : State} (h : s.bus.tx = .quiet) : s.checkSent = s := by
  unfold State.checkSent; rw [h]

/-! ## A bit read back -/

/-- R158: a bit read as driven is passed, and nothing else changes. -/
theorem State.compareBit_agrees {s : State} {src : TxSource} {f : List Byte} {n : Nat} {level : Bool}
    (h : s.bus.tx = .sending src f n) (k : (frameBits f)[n]? = some level) :
    s.compareBit level = { s with bus := { s.bus with tx := .sending src f (n + 1) } } := by
  unfold State.compareBit; rw [h]; simp only [k, if_true]

/-- R158: a bit read otherwise stops the drive, and the frame received is another's. -/
theorem State.compareBit_withdraws {s : State} {src : TxSource} {f : List Byte} {n : Nat} {level : Bool}
    (h : s.bus.tx = .sending src f n) (k : (frameBits f)[n]? ≠ some level) :
    s.compareBit level =
      ({ s with bus := { s.bus with tx := .quiet, rx := { s.bus.rx with own := false } } } : State).requeue src := by
  unfold State.compareBit; rw [h]; simp only [k, if_false]

/-! ## A frame taken (R155, R156) -/

/-- What becomes of an ended frame leaves the receiver where the line has brought it. -/
@[simp] theorem State.frameEnd_rx (s : State) (chars : List Byte) : (s.frameEnd chars).bus.rx = s.bus.rx := rfl

/-- Beside the receiver, an ended frame is its checks' and its row's. -/
theorem State.frameEnd_eq (s : State) (chars : List Byte) :
    s.frameEnd chars =
      { s.judgeFrame chars with bus := { (s.judgeFrame chars).bus with rx := s.bus.rx } } := rfl

/-! ## A frame sent (R159, R161, R167) -/

@[simp] theorem State.frameSent_tx (s : State) (src : TxSource) : (s.frameSent src).bus.tx = .quiet := rfl
@[simp] theorem State.frameSent_rx (s : State) (src : TxSource) : (s.frameSent src).bus.rx = s.bus.rx := by
  cases src with
  | status => rfl
  | reply n => simp only [State.frameSent, Bus.completeSilence, Bus.release, Bus.setPlace]; split <;> rfl
@[simp] theorem State.frameSent_sentSinceSilence (s : State) (src : TxSource) :
    (s.frameSent src).fault.sentSinceSilence = true := rfl

end Sys2Proof.Machine
end

