-- ==== Sys2Proof/Laws/Requests.lean ====
section
/-! SUPPORT. Motion requests (Requests.lean) are calm: the speed clamp of R22 keeps every Vseg at most Vmax, and what takes a
request into the profile or starts the handshake drives the outputs as R39 gives. -/

namespace Sys2Proof.Machine

/-- R22: a clamped speed is at most Vmax when Vcreep is. -/
theorem clampSpeed_le (p : AxisParams) (v : Nat) (h : p.vcreep ≤ p.vmax) : clampSpeed p v ≤ p.vmax := by
  unfold clampSpeed; omega

theorem clampGoal_speed (p : AxisParams) (r : Bool) (g : Goal) (h : p.vcreep ≤ p.vmax) :
    (clampGoal p r g).speed ≤ p.vmax := by
  cases g <;> simp [clampGoal, Goal.speed, clampSpeed_le, h]

/-- A request taken into the profile, from a pending request or a new one. -/
theorem AxisUnit.takeGoal_calm (p : AxisParams) (a : AxisUnit) (r : Request) (h : a.speedOk p → r.goal.speed ≤ p.vmax) :
    AxisUnit.Calm p a (a.takeGoal r) := by
  refine ⟨⟨rfl, rfl, rfl, rfl, rfl, rfl, rfl, rfl, rfl, rfl⟩, ?_, ?_⟩
  · rintro ⟨-, -, h3, h4, -⟩
    exact ⟨rfl, rfl, h3, h4, fun e => Bool.noConfusion e⟩
  · intro o
    refine ⟨o.1, ?_, by simp [AxisUnit.takeGoal], o.2.2.2⟩
    intro g hg
    simp only [AxisUnit.takeGoal, Option.some.injEq] at hg
    rw [← hg]
    exact h o

theorem AxisUnit.keepPending_calm (p : AxisParams) (a : AxisUnit) (r : Request) (h : a.speedOk p → r.goal.speed ≤ p.vmax) :
    AxisUnit.Calm p a { a with pending := some r } := by
  refine ⟨⟨rfl, rfl, rfl, rfl, rfl, rfl, rfl, rfl, rfl, rfl⟩, id, fun o => ⟨o.1, o.2.1, ?_, o.2.2.2⟩⟩
  rintro q hq
  simp only [Option.some.injEq] at hq
  rw [← hq]
  exact h o

theorem AxisUnit.releasing_calm (p : AxisParams) (a : AxisUnit) (n : Nat) :
    AxisUnit.Calm p a (a.enter (.starting .releasing) (some n)) :=
  .entering (.starting .releasing) ⟨rfl, rfl, rfl, rfl, rfl, rfl, rfl, rfl, rfl, rfl⟩ rfl rfl rfl (.inr ⟨rfl, rfl⟩)
    (.inl rfl) (.inl rfl) (.inl rfl)

theorem State.refuseRequest_calm (s : State) (x : Axis) (q : Requester) : Calm s (s.refuseRequest x q) := by
  cases q
  · exact State.report_calm _ _ _
  · exact State.tellStopped_calm s x (some .enableMonitor)
  · exact State.tellStopped_calm s x (some .positionUnit)

theorem State.releaseExpired_calm (s : State) (x : Axis) : Calm s (s.releaseExpired x) := by
  unfold State.releaseExpired
  simp only
  split
  · exact .ofAxis s x _ (.entering (.tracking false) ⟨rfl, rfl, rfl, rfl, rfl, rfl, rfl, rfl, rfl, rfl⟩ rfl rfl rfl
      (.inr ⟨rfl, rfl⟩) (.inl rfl) (.inr rfl) (.inl rfl))
  · next r hr =>
    split
    · refine (Calm.ofAxis s x _ ?_).trans (State.refuseRequest_calm _ _ _)
      exact (AxisUnit.dropPending_calm _ _).trans (AxisUnit.toSettling_calm _ _ _)
    · exact .ofAxis s x _ (AxisUnit.takeGoal_calm _ _ _ fun o => o.2.2.1 r hr)

theorem State.readyTaken_calm (s : State) (x : Axis) : Calm s (s.readyTaken x) := by
  have h := Calm.ofAxis s x _ (AxisUnit.releasing_calm _ (s.axis x) (s.params x).releaseTime)
  unfold State.readyTaken
  simp only
  split
  · exact h.trans (State.releaseExpired_calm _ _)
  · exact h

/-- R40. The speed reference is 0 in OFF, so the start keeps the law of R53. -/
theorem State.startUp_calm (s : State) (x : Axis) (r : Request)
    (h : (s.axis x).speedOk (s.params x) → r.goal.speed ≤ (s.params x).vmax) : Calm s (s.startUp x r) := by
  have k : Calm s (s.setAxis x { (s.axis x).enter (.starting .awaitReady) (some Config.readyLimit) with
      p := (s.axis x).e, f := 0, pending := some r }) := by
    refine .ofAxis s x _ ⟨⟨rfl, rfl, rfl, rfl, rfl, rfl, rfl, rfl, rfl, rfl⟩, ?_, ?_⟩
    · rintro ⟨-, -, h3, h4, -⟩
      exact ⟨rfl, rfl, h3, h4, fun e => Bool.noConfusion e⟩
    · intro o
      refine ⟨o.1, o.2.1, ?_, o.2.2.2⟩
      rintro q hq
      simp only [Option.some.injEq] at hq
      rw [← hq]
      exact h o
  unfold State.startUp
  simp only
  split
  · exact k.trans (State.readyTaken_calm _ _)
  · exact k

theorem State.placeRequest_calm (s : State) (x : Axis) (r : Request)
    (h : (s.axis x).speedOk (s.params x) → r.goal.speed ≤ (s.params x).vmax) : Calm s (s.placeRequest x r) := by
  unfold State.placeRequest
  simp only
  split
  · split
    · exact .refl s
    · exact State.startUp_calm s x r h
  · exact .ofAxis s x _ (AxisUnit.keepPending_calm _ _ _ h)
  · exact .ofAxis s x _ (AxisUnit.takeGoal_calm _ _ _ h)
  · exact .ofAxis s x _ (AxisUnit.keepPending_calm _ _ _ h)
  · exact .ofAxis s x _ (AxisUnit.keepPending_calm _ _ _ h)
  · exact State.tellStopped_calm _ _ _

theorem State.request_calm (s : State) (x : Axis) (r : Request) : Calm s (s.request x r) := by
  have k : Calm s (if targetLimited (s.params x) (s.axis x).referenced r.goal then s.raiseNotice .targetLimited else s) := by
    split
    · exact State.raiseNotice_calm _ _
    · exact .refl s
  unfold State.request
  simp only
  generalize (if targetLimited (s.params x) (s.axis x).referenced r.goal then s.raiseNotice .targetLimited else s) = s1
    at k
  split
  · exact k.trans (State.refuseRequest_calm _ _ _)
  · refine k.trans (State.placeRequest_calm _ _ _ fun o => ?_)
    rw [k.params] at o ⊢
    exact clampGoal_speed _ _ _ o.2.2.2.1

theorem State.takeAtOff_calm (s : State) (x : Axis) : Calm s (s.takeAtOff x) := by
  unfold State.takeAtOff
  simp only
  split
  · exact (Calm.ofAxis s x _ (AxisUnit.dropPending_calm _ _)).trans (State.request_calm _ _ _)
  · exact .refl s

theorem State.setExpired_calm (s : State) (x : Axis) : Calm s (s.setExpired x) :=
  (Calm.ofAxis s x _ (AxisUnit.toOff_calm _ _)).trans (State.takeAtOff_calm _ _)

theorem State.holdExpired_calm (s : State) (x : Axis) : Calm s (s.holdExpired x) :=
  (Calm.ofAxis s x _ (AxisUnit.toSettling_calm _ _ _)).trans (State.takeAtOff_calm _ _)

theorem State.takeAtStopEnd_calm (s : State) (x : Axis) : Calm s (s.takeAtStopEnd x) := by
  unfold State.takeAtStopEnd
  simp only
  split
  · next r _ hr =>
    split
    · exact (Calm.ofAxis s x _ (AxisUnit.dropPending_calm _ _)).trans (State.refuseRequest_calm _ _ _)
    · exact .ofAxis s x _ (AxisUnit.takeGoal_calm _ _ _ fun o => o.2.2.1 r hr)
  · exact .refl s

theorem State.zeroHold_calm (s : State) (x : Axis) : Calm s (s.zeroHold x) := by
  unfold State.zeroHold
  split
  · exact State.holdExpired_calm s x
  · exact .refl s

end Sys2Proof.Machine
end

