-- ==== Sys2Proof/Laws/Sequencer.lean ====
section
/-! SUPPORT. The zone guard's and the sequencer's operations (Zones.lean, Sequencer.lean, Tick.lean's deliveries) are calm; the zone
guard's keep at most one row CLAIMING (R86). -/

namespace Sys2Proof.Machine

/-! ## Rows -/

/-- A change of rows that makes none CLAIMING adds no claim. -/
theorem countP_map_le {α : Type} (p : α → Bool) (f : α → α) (l : List α) (h : ∀ a, p (f a) = true → p a = true) :
    (l.map f).countP p ≤ l.countP p := by
  induction l with
  | nil => simp
  | cons a l ih =>
    simp only [List.map_cons, List.countP_cons]
    have := h a
    split <;> split <;> simp_all
    omega

theorem countP_modify_le {α : Type} (p : α → Bool) (f : α → α) (i : Nat) (l : List α)
    (h : ∀ a, p (f a) = true → p a = true) : (l.modify i f).countP p ≤ l.countP p := by
  induction l generalizing i with
  | nil => simp
  | cons a l ih =>
    cases i with
    | zero =>
      simp only [List.modify_zero_cons, List.countP_cons]
      have := h a
      split <;> split <;> simp_all
    | succ i =>
      simp only [List.modify_succ_cons, List.countP_cons]
      have := ih i
      omega

theorem countP_modify_succ {α : Type} (p : α → Bool) (f : α → α) (i : Nat) (l : List α) :
    (l.modify i f).countP p ≤ l.countP p + 1 := by
  induction l generalizing i with
  | nil => simp
  | cons a l ih =>
    cases i with
    | zero =>
      simp only [List.modify_zero_cons, List.countP_cons]
      split <;> split <;> omega
    | succ i =>
      simp only [List.modify_succ_cons, List.countP_cons]
      have := ih i
      omega

theorem State.tickRow_claiming (s : State) (r : GuardRow) (h : (s.tickRow r).guard = .claiming) : r.guard = .claiming := by
  unfold State.tickRow at h
  simp only at h
  split at h
  · next e => split at h <;> simp_all [GuardRow.toFree]
  · assumption
  · next e => split at h <;> simp_all [GuardRow.toFree]
  · next e => simp_all

/-- R86: a selection leaves at most one row CLAIMING. -/
theorem State.select_claims (s : State) (h : s.oneClaim) : s.select.oneClaim := by
  unfold State.select
  split
  · split
    · next i hi =>
      simp only [State.oneClaim, State.modRow, ZoneGuard.claims] at h ⊢
      refine (countP_modify_succ _ _ _ _).trans ?_
      unfold State.chosen at hi
      split at hi
      · cases hi
      · next hn =>
        have : s.zones.rows.countP (fun r => decide (r.guard = .claiming)) = 0 := by
          rw [List.countP_eq_zero]
          intro r hr hc
          exact hn (List.any_eq_true.mpr ⟨r, hr, hc⟩)
        omega
    · exact h
  · exact h

theorem State.select_eq (s : State) : s.select = { s with zones := s.select.zones } := by
  unfold State.select
  split
  · split <;> rfl
  · rfl

theorem State.select_calm (s : State) : Calm s s.select := by
  rw [State.select_eq]
  exact .ofZones s _ fun o => State.select_claims s o

theorem State.announce_calm (s b : State) : Calm s (s.announce b) := by
  unfold State.announce
  split
  · exact .refl s
  · exact State.requestStatus_calm s

theorem State.ofRows_calm (s : State) (f : GuardRow → GuardRow) (h : ∀ r, (f r).guard = .claiming → r.guard = .claiming) :
    Calm s { s with zones := { s.zones with rows := s.zones.rows.map f } } :=
  .ofZones s _ fun o => (countP_map_le _ f _ fun r k => by simpa using h r (by simpa using k)).trans o

theorem State.zoneTick_calm (s b : State) : Calm s (s.zoneTick b) :=
  (((State.ofRows_calm s s.tickRow s.tickRow_claiming).trans (State.select_calm _)).trans
    (State.judgeZoneWait_calm _)).trans (State.announce_calm _ _)

theorem State.reportConflicts_calm (n : Nat) (rows : List GuardRow) (s : State) : Calm s (s.reportConflicts n rows) := by
  induction rows generalizing s with
  | nil => exact .refl s
  | cons r rs ih =>
    unfold State.reportConflicts
    split
    · exact (State.report_calm _ _ _).trans (ih _)
    · exact ih s

theorem State.withdrawNotClear_calm (s : State) (n : Nat) : Calm s (s.withdrawNotClear n) := by
  refine State.ofRows_calm s _ fun r h => ?_
  split at h
  · simp [GuardRow.toWaiting] at h
  · exact h

theorem State.withdrawStale_calm (s : State) (n : Nat) : Calm s (s.withdrawStale n) := by
  refine State.ofRows_calm s _ fun r h => ?_
  split at h
  · simp [GuardRow.toWaiting] at h
  · exact h

theorem State.selectFor_calm (s : State) (n : Nat) : Calm s (s.selectFor n) := by
  unfold State.selectFor
  split
  · exact State.select_calm s
  · exact .refl s

theorem State.zoneArrival_calm (s : State) (n : Nat) : Calm s (s.zoneArrival n) := by
  unfold State.zoneArrival
  refine (State.reportConflicts_calm n s.zones.rows s).trans (((Calm.trans (State.withdrawNotClear_calm _ n) ?_).trans
    (State.judgeZoneWait_calm _)).trans (State.announce_calm _ _))
  split
  · exact State.selectFor_calm _ n
  · exact .refl _

theorem State.zoneFreshness_calm (s : State) (n : Nat) (l : Bool) : Calm s (s.zoneFreshness n l) := by
  have k : Calm s (if l then s.withdrawStale n else s) := by
    split
    · exact State.withdrawStale_calm s n
    · exact .refl s
  unfold State.zoneFreshness
  simp only
  exact k.trans (((State.selectFor_calm _ n).trans (State.judgeZoneWait_calm _)).trans (State.announce_calm _ _))

theorem State.windowExpired_calm (s : State) : Calm s s.windowExpired := by
  unfold State.windowExpired
  split
  · exact .refl s
  · refine (Calm.trans ?_ ((State.select_calm _).trans (State.judgeZoneWait_calm _))).trans (State.announce_calm _ _)
    refine .ofZones s _ fun o => (countP_modify_le _ _ _ _ fun r h => ?_).trans o
    split at h <;> simp [GuardRow.toHeld, GuardRow.toWaiting] at h

theorem State.zoneWaitExpired_calm (s : State) : Calm s s.zoneWaitExpired := by
  unfold State.zoneWaitExpired
  split
  · exact .refl s
  · exact (Calm.ofZones s { s.zones with waitElapsed := 0 } id).trans (State.report_calm _ _ _)

/-! ## The sequencer -/

theorem State.testConds_calm (s : State) (f : Nat → Bool) : Calm s (s.testConds f) := .ofSeq s _

theorem State.stopRequested_calm (s : State) : Calm s s.stopRequested := by
  have k : Calm s (if s.seq.rakeMove = .requested then s.stopAxis .rake .controlled else s) := by
    split
    · exact State.stopAxis_calm _ _ _
    · exact .refl s
  unfold State.stopRequested
  simp only
  split
  · exact k.trans (State.stopAxis_calm _ _ _)
  · exact k

theorem State.peerAborts_calm (s : State) : Calm s s.peerAborts :=
  ((State.raiseNotice_calm s _).trans (State.stopRequested_calm _)).trans (State.seqToAborted_calm _)

theorem State.startStep_calm (s : State) (k : Nat) : Calm s (s.startStep k) :=
  ((Calm.ofSeq s _).trans (.ofSeq _ _)).trans (State.requestStatus_calm _)

theorem State.giveTarget_calm (s : State) (x : Axis) : Calm s (s.giveTarget x) := by
  unfold State.giveTarget
  split
  · split
    · exact (Calm.ofSeq s _).trans (State.request_calm _ _ _)
    · exact .refl s
  · exact .refl s

theorem State.startMoving_calm (s : State) : Calm s s.startMoving := by
  have k : Calm s (({ s with seq := { s.seq with phase := .moving } } : State).requestStatus) :=
    (Calm.ofSeq s _).trans (State.requestStatus_calm _)
  unfold State.startMoving
  simp only
  generalize ({ s with seq := { s.seq with phase := .moving } } : State).requestStatus = s1 at k
  split
  · exact k
  · exact k.trans (State.giveTarget_calm _ _)
  · exact k.trans (State.giveTarget_calm _ _)
  · split
    · exact k.trans ((State.giveTarget_calm _ _).trans (State.giveTarget_calm _ _))
    · exact k.trans ((Calm.ofSeq _ _).trans (State.giveTarget_calm _ _))
    · exact k.trans ((Calm.ofSeq _ _).trans (State.giveTarget_calm _ _))

theorem State.finishStep_calm (s : State) : Calm s s.finishStep := by
  unfold State.finishStep
  split
  · exact (State.startStep_calm _ _).trans (State.testConds_calm _ _)
  · exact (Calm.ofSeqPeers s _ _ (dropScript_stations _)).trans (State.requestStatus_calm _)

theorem State.advance_calm (n : Nat) (s : State) : Calm s (State.advance n s) := by
  induction n generalizing s with
  | zero => exact .refl s
  | succ n ih =>
    unfold State.advance
    split
    · split
      · split
        · exact (State.startMoving_calm s).trans (ih _)
        · exact .refl s
      · split
        · exact ((Calm.ofSeq s _).trans (State.requestStatus_calm _)).trans (ih _)
        · exact .refl s
      · split
        · exact (State.finishStep_calm s).trans (ih _)
        · exact .refl s
      · exact .refl s
      · exact .refl s
    · exact .refl s

theorem State.runPhases_calm (s : State) : Calm s s.runPhases := State.advance_calm _ _

theorem State.seqArrived_calm (s : State) (x : Axis) : Calm s (s.seqArrived x) := by
  unfold State.seqArrived
  split
  · simp only
    refine Calm.trans ?_ (State.runPhases_calm _)
    split
    · exact (Calm.ofSeq s _).trans (State.giveTarget_calm _ _)
    · exact .ofSeq s _
  · exact .refl s

theorem State.dwellEnds_calm (s : State) : Calm s s.dwellEnds := by
  unfold State.dwellEnds
  split
  · exact ((Calm.ofSeq s _).trans (State.finishStep_calm _)).trans (State.runPhases_calm _)
  · exact .refl s

theorem State.seqArrival_calm (s : State) (n : Nat) : Calm s (s.seqArrival n) := by
  unfold State.seqArrival
  split
  · split
    · split
      · exact State.peerAborts_calm s
      · exact (State.testConds_calm _ _).trans (State.runPhases_calm _)
    · exact .refl s
  · exact .refl s

theorem State.holdOffExpires_calm (s : State) : Calm s s.holdOffExpires := by
  unfold State.holdOffExpires
  split
  · simp only
    generalize (if s.mon.present then SeqState.running else SeqState.paused) = st
    have k := ((Calm.ofSeq s { s.seq with state := st, holdOff := none }).trans (State.startStep_calm _ 0)).trans
      (State.judgeZoneWait_calm _)
    generalize (({ s with seq := { s.seq with state := st, holdOff := none } } : State).startStep 0).judgeZoneWait = s1 at k
    split
    · exact k.trans (State.peerAborts_calm _)
    · exact k.trans ((State.testConds_calm _ _).trans (State.runPhases_calm _))
  · exact .refl s

theorem State.pause_calm (s : State) : Calm s s.pause := by
  unfold State.pause
  split
  · exact (((Calm.ofSeq s _).trans (State.requestStatus_calm _)).trans (State.judgeZoneWait_calm _)).trans
      (State.stopRequested_calm _)
  · exact .refl s

theorem State.resumeAxis_calm (s : State) (q : Sequencer) (x : Axis) : Calm s (s.resumeAxis q x) := by
  unfold State.resumeAxis
  split
  · exact State.giveTarget_calm s x
  · split
    · exact State.giveTarget_calm s x
    · exact .refl s
  · exact .refl s
  · exact .refl s
  · exact .refl s

theorem State.resume_calm (s : State) : Calm s s.resume := by
  have k : Calm s ((({ s with seq := { s.seq with state := .running } } : State).requestStatus).judgeZoneWait) :=
    ((Calm.ofSeq s _).trans (State.requestStatus_calm _)).trans (State.judgeZoneWait_calm _)
  unfold State.resume
  split
  · simp only
    generalize (({ s with seq := { s.seq with state := .running } } : State).requestStatus).judgeZoneWait = s1 at k
    split
    · exact k.trans ((State.testConds_calm _ _).trans (State.runPhases_calm _))
    · exact k.trans (((State.resumeAxis_calm _ _ _).trans (State.resumeAxis_calm _ _ _)).trans (State.runPhases_calm _))
    · exact k
    · exact k
    · exact k
  · exact .refl s

theorem State.annul_calm (s : State) : Calm s s.annul := by
  unfold State.annul
  split
  · split
    · exact (State.seqToIdle_calm s).trans (State.giveOutcome_calm _ _ _ _)
    · exact State.seqToIdle_calm s
  · exact .refl s

/-! ## Deliveries of a tick -/

theorem State.zeroVelocity_calm (s : State) (x : Axis) : Calm s (s.zeroVelocity x) := by
  unfold State.zeroVelocity
  split
  · exact (Calm.ofAxis s x _ (AxisUnit.setLeg_calm _ _ _ _)).trans (State.request_calm _ _ _)
  · exact (Calm.ofAxis s x _ (AxisUnit.setLeg_calm _ _ _ _)).trans (State.request_calm _ _ _)
  · exact .refl s

theorem State.arrived_calm (s : State) (x : Axis) (q : Option Requester) : Calm s (s.arrived x q) := by
  unfold State.arrived
  split
  · exact State.seqArrived_calm s x
  · split
    · split
      · exact .ofMon s _
      · exact .refl s
    · exact .refl s
  · exact .refl s
  · exact .refl s

theorem State.deliver_calm (s : State) (x : Axis) (t : TurnReport) : Calm s (s.deliver x t) := by
  unfold State.deliver
  simp only
  have k := State.arrived_calm s x t.arrival
  split <;> split
  · exact (k.trans (State.zeroVelocity_calm _ _)).trans (State.stopEnded_calm _ _)
  · exact k.trans (State.stopEnded_calm _ _)
  · exact k.trans (State.zeroVelocity_calm _ _)
  · exact k

theorem State.reportTurn_calm (s : State) (x : Axis) (t : TurnReport) : Calm s (s.reportTurn x t) := by
  unfold State.reportTurn
  simp only
  split <;> split
  · exact (State.report_calm _ _ _).trans (State.report_calm _ _ _)
  · exact State.report_calm _ _ _
  · exact State.report_calm _ _ _
  · exact .refl s

theorem State.postMotion_calm (s : State) (x : Axis) (t : TurnReport) : Calm s (s.postMotion x t) := by
  unfold State.postMotion
  simp only
  split <;> split
  · exact (State.takeAtStopEnd_calm _ _).trans (State.zeroHold_calm _ _)
  · exact State.zeroHold_calm _ _
  · exact State.takeAtStopEnd_calm _ _
  · exact .refl s

/-- All that a tick does after the two turns is calm. -/
theorem State.afterTurns_calm (s b : State) (r w : TurnReport) :
    Calm s ((((((((s.zoneTick b).reportTurn .rake r).reportTurn .slew w).postMotion .rake r).postMotion .slew w).deliver
      .rake r).deliver .slew w)) :=
  (((((((State.zoneTick_calm s b).trans (State.reportTurn_calm _ _ _)).trans (State.reportTurn_calm _ _ _)).trans
    (State.postMotion_calm _ _ _)).trans (State.postMotion_calm _ _ _)).trans (State.deliver_calm _ _ _)).trans
    (State.deliver_calm _ _ _))

end Sys2Proof.Machine
end

