-- ==== Sys2Proof/Laws/Tick.lean ====
section
/-! SUPPORT. The arithmetic of a profile tick (Profile.lean, Tick.lean): a turn keeps |V| within Vmax (R22), the speed reference
within its range (R33), and the laws of an axis. -/

namespace Sys2Proof.Machine

/-! ## Velocities -/

theorem slowBy_natAbs (v : Int) (r : Nat) : (slowBy v r).natAbs = v.natAbs - r := by
  unfold slowBy signed
  rw [Int.natAbs_mul, Int.natAbs_natCast]
  rcases Int.lt_trichotomy v 0 with h | h | h
  · rw [Int.sign_eq_neg_one_of_neg h]; simp
  · simp [h]
  · rw [Int.sign_eq_one_of_pos h]; simp

theorem signed_natAbs_le (s : Int) (n : Nat) (h : s.natAbs ≤ 1) : (signed s n).natAbs ≤ n := by
  unfold signed
  rw [Int.natAbs_mul, Int.natAbs_natCast]
  calc s.natAbs * n ≤ 1 * n := Nat.mul_le_mul_right n h
    _ = n := Nat.one_mul n

theorem sign_natAbs_le (d : Int) : d.sign.natAbs ≤ 1 := by
  rcases Int.lt_trichotomy d 0 with h | h | h
  · rw [Int.sign_eq_neg_one_of_neg h]; simp
  · simp [h]
  · rw [Int.sign_eq_one_of_pos h]; simp

theorem towardSeg_le (m v a : Nat) : towardSeg m v a ≤ max m v := by unfold towardSeg; split <;> (try split) <;> omega

/-- R25: a candidate of POSITION mode is no faster than the larger of |V| and Vseg. -/
theorem positionCandidate_le (p : AxisParams) (d v : Int) (g : Nat) :
    (positionCandidate p d v g).natAbs ≤ max v.natAbs g := by
  unfold positionCandidate
  split
  · rw [slowBy_natAbs]; omega
  · split
    · exact (signed_natAbs_le _ _ (sign_natAbs_le d)).trans (by omega)
    · exact (signed_natAbs_le _ _ (sign_natAbs_le d)).trans (towardSeg_le _ _ _)

/-- R29: and so is one of VELOCITY mode. -/
theorem velocityCandidate_le (p : AxisParams) (d : Dir) (v : Int) (g : Nat) :
    (velocityCandidate p d v g).natAbs ≤ max v.natAbs g := by
  unfold velocityCandidate
  split
  · rw [slowBy_natAbs]; omega
  · exact (signed_natAbs_le _ _ (by cases d <;> simp [dirSign])).trans (towardSeg_le _ _ _)

theorem AxisUnit.candidate_le (p : AxisParams) (a : AxisUnit) (h : a.speedOk p) : (a.candidate p).natAbs ≤ p.vmax := by
  obtain ⟨h1, h2, -⟩ := h
  unfold AxisUnit.candidate
  split
  · rw [slowBy_natAbs]; omega
  · split
    · simp
    · next t g hm => exact (positionCandidate_le _ _ _ _).trans (by have := h2 _ hm; simp only [Goal.speed] at this; omega)
    · next d g hm => exact (velocityCandidate_le _ _ _ _).trans (by have := h2 _ hm; simp only [Goal.speed] at this; omega)
    · rw [slowBy_natAbs]; omega

theorem AxisUnit.brakingOption_le (p : AxisParams) (a : AxisUnit) (h : a.speedOk p) :
    (a.brakingOption p).natAbs ≤ p.vmax := by
  have := h.1
  unfold AxisUnit.brakingOption
  rw [slowBy_natAbs]; omega

/-- R26: the advance leaves the velocity it was given, or 0 at arrival. -/
theorem AxisUnit.advanceBy_v (a : AxisUnit) (v : Int) : (a.advanceBy v).v = v ∨ (a.advanceBy v).v = 0 := by
  have k : ∀ x, (splitPosition x v).v = v := fun x => by unfold splitPosition; split <;> (try split) <;> rfl
  unfold AxisUnit.advanceBy
  simp only
  split
  · split
    · exact .inr rfl
    · exact .inl (k _)
  · exact .inl (k _)

theorem AxisUnit.choose_v (p : AxisParams) (a : AxisUnit) (f : Advance → Bool) (h : a.speedOk p) :
    (a.choose p f).taken.v.natAbs ≤ p.vmax := by
  have hc := a.candidate_le p h
  have hb := a.brakingOption_le p h
  have kc : (a.advanceBy (a.candidate p)).v.natAbs ≤ p.vmax := by
    rcases a.advanceBy_v (a.candidate p) with e | e <;> rw [e]
    · exact hc
    · simp
  have kb : (a.advanceBy (a.brakingOption p)).v.natAbs ≤ p.vmax := by
    rcases a.advanceBy_v (a.brakingOption p) with e | e <;> rw [e]
    · exact hb
    · simp
  unfold AxisUnit.choose
  simp only
  split
  · exact kc
  · split
    · exact kc
    · exact kb

/-! ## References -/

theorem clampInt_bounds (x : Int) : -1000 ≤ clampInt (-1000) 1000 x ∧ clampInt (-1000) 1000 x ≤ 1000 := by
  unfold clampInt; omega

/-- R33: the speed reference lies in [−1000, +1000]. -/
theorem speedReference_bounds (p : AxisParams) (q e v : Int) :
    -1000 ≤ speedReference p q e v ∧ speedReference p q e v ≤ 1000 := clampInt_bounds _

/-! ## Turns -/

theorem AxisUnit.restTurn_calm (p : AxisParams) (a : AxisUnit) (h : a.state.enables = false) :
    AxisUnit.Calm p a a.restTurn := by
  refine ⟨⟨rfl, rfl, rfl, rfl, rfl, rfl, rfl, rfl, rfl, rfl⟩, ?_, ?_⟩
  · rintro ⟨h1, h2, -, -, -⟩
    exact ⟨h1, h2, by simp [AxisUnit.restTurn], by simp [AxisUnit.restTurn], fun _ => rfl⟩
  · rintro ⟨-, -, h3, h4, -⟩
    exact ⟨by simp [AxisUnit.restTurn, AxisUnit.rest], by simp [AxisUnit.restTurn, AxisUnit.rest], h3, h4,
      by simp [AxisUnit.restTurn], .inr rfl⟩

theorem AxisUnit.waitTurn_calm (p : AxisParams) (a : AxisUnit) (h : a.state.enables = true) :
    AxisUnit.Calm p a (a.waitTurn p) := by
  refine ⟨⟨rfl, rfl, rfl, rfl, rfl, rfl, rfl, rfl, rfl, rfl⟩, ?_, fun o => ⟨o.1, o.2.1, o.2.2.1, o.2.2.2.1, o.1, .inl rfl⟩⟩
  rintro ⟨h1, h2, -, -, -⟩
  have hb : -1000 ≤ (a.waitTurn p).speedRef ∧ (a.waitTurn p).speedRef ≤ 1000 := by
    unfold AxisUnit.waitTurn
    simp only
    split
    · exact clampInt_bounds _
    · simp
  refine ⟨h1, h2, hb.1, hb.2, fun e => ?_⟩
  have : a.driveEnable = false := e
  rw [h1, h] at this
  cases this

theorem AxisUnit.finishTurn_calm (p : AxisParams) (a : AxisUnit) (d : Advance) (done : Bool)
    (hen : a.state.enables = true) (hv : a.speedOk p → d.v.natAbs ≤ p.vmax) :
    AxisUnit.Calm p a (a.finishTurn p d done) := by
  have k : AxisUnit.Calm p a { a with
      p := d.p, f := d.f, v := d.v, tickV := d.v, speedRef := speedReference p d.p a.e d.v } := by
    refine ⟨⟨rfl, rfl, rfl, rfl, rfl, rfl, rfl, rfl, rfl, rfl⟩, ?_, ?_⟩
    · rintro ⟨h1, h2, -, -, -⟩
      refine ⟨h1, h2, (speedReference_bounds _ _ _ _).1, (speedReference_bounds _ _ _ _).2, fun e => ?_⟩
      have : a.driveEnable = false := e
      rw [h1, hen] at this
      cases this
    · intro o
      exact ⟨hv o, o.2.1, o.2.2.1, o.2.2.2.1, hv o, .inl rfl⟩
  unfold AxisUnit.finishTurn
  simp only
  split
  · split
    · exact k.trans (AxisUnit.toHold_calm _ _ _)
    · exact k
  · split
    · exact k.trans (AxisUnit.toHold_calm _ _ _)
    · split
      · split
        · refine k.trans ⟨⟨rfl, rfl, rfl, rfl, rfl, rfl, rfl, rfl, rfl, rfl⟩, id, fun o => ⟨o.1, by simp, o.2.2⟩⟩
        · exact k
      · exact k

/-- An axis's turn is calm. -/
theorem AxisUnit.turn_calm (p : AxisParams) (a : AxisUnit) (f : Advance → Bool) (z : Advance → Option Nat) :
    AxisUnit.Calm p a (a.turn p f z).1 := by
  unfold AxisUnit.turn
  split
  · next h => exact AxisUnit.restTurn_calm p a (by rw [h]; rfl)
  · next h => exact AxisUnit.restTurn_calm p a (by rw [h]; rfl)
  · next h => exact AxisUnit.waitTurn_calm p a (by rw [h]; rfl)
  · next h => exact AxisUnit.waitTurn_calm p a (by rw [h]; rfl)
  · next h =>
    split
    · exact AxisUnit.finishTurn_calm p a _ _ (by rw [h]; rfl) fun _ => by simp [AxisUnit.stand]
    · exact AxisUnit.finishTurn_calm p a _ _ (by rw [h]; rfl) fun o => a.choose_v p f o
  · next h => exact AxisUnit.finishTurn_calm p a _ _ (by rw [h]; rfl) fun o => a.choose_v p f o

/-- What a tick leaves, in the terms of the state it began with: as a calm step, but for the envelopes and the time to the next
tick. -/
theorem State.profileTick_calm (s : State) :
    ∃ u, Calm { s with tickLeft := u.tickLeft, env := u.env } u ∧ s.profileTick = u ∧ u.tickLeft = Config.tickPeriod := by
  refine ⟨s.profileTick, ?_, rfl, ?_⟩
  all_goals
    unfold State.profileTick
    simp only
    generalize hr : ({ s with tickLeft := Config.tickPeriod } : State).tickRake = r
    generalize hw : r.1.tickSlew = w
  · have k := State.afterTurns_calm w.1 s r.2 w.2
    rw [k.tickLeft, k.env]
    refine Calm.trans ?_ k
    subst hw; subst hr
    exact ⟨rfl, rfl, rfl, rfl, rfl, .inl rfl, rfl, rfl, rfl, rfl, rfl, AxisUnit.turn_calm _ _ _ _,
      AxisUnit.turn_calm _ _ _ _, id, id, id, .refl _⟩
  · rw [(State.afterTurns_calm w.1 s r.2 w.2).tickLeft, ← hw, ← hr]
    rfl

end Sys2Proof.Machine
end

