-- ==== Sys2Proof/Tests/Slice0.lean ====
section
/-! SUPPORT. Tests: the checks of WellFormed refuse, figures that the manual works out, and for every statement with hypotheses a
state and operands that meet them. Each figure's source stands in its docstring. -/

namespace Sys2Proof.Tests

-- One theorem at a time: side by side, the kernel evaluations below hold a large stack each.
set_option Elab.async false

open Sys2Proof.Machine

/-! ## A small station: the parameters of the worked sequences (section 2, chapter 5), station 7, one zone -/

def slewPar : AxisParams where
  softLo := -20000
  softHi := 20000
  mark := -2000
  slip := 12
  homeDir := .neg
  vmax := 65536
  vrated := 65536
  vcreep := 1024
  vjog := 49152
  vhome := 16384
  a := 64
  aQuick := 256
  followLimit := 200
  kp := 32
  margin := 40
  lead := 600
  releaseTime := 120
  holdTime := 200
  setTime := 150

def rakePar : AxisParams :=
  { slewPar with
    softLo := -100, softHi := 5000, mark := 0, vmax := 98304, vrated := 98304, a := 16384, aQuick := 32768, margin := 10 }

def zone12 : Zone where
  number := 12
  lo := 10200
  hi := 10900
  ceiling := none
  peers := [8]

def rec0 : Record where
  bytes := List.replicate 152 0#8
  slew := slewPar
  rake := rakePar
  zones := [zone12]
  consoles := [30]
  zoneWait := 30
  stepLimit := 120

def con : Sender := { station := 30, unitTag := 0x112233 }
def peer8 : Sender := { station := 8, unitTag := 9 }
def twin : Sender := { station := 7, unitTag := 9 }
def hd : CommandHead := { sender := con, tag := 1, targets := 1#32 <<< 7 }
def rq (jumper : Bool) (args : List Byte) : ServiceReq := { sender := con, target := 7, tag := 3, args := args, jumper := jumper, straps := 7 }

/-- OPERATIONAL, station 7, the record in force, no zone row, both axes OFF. -/
def on : State :=
  { State.reset with
    comm := { Commissioning.cold with mode := .operational, straps := 7, record := some rec0, jumper := true }
    bus := { Bus.cold with nextDue := some 25, firstDue := true } }

def inMode (m : Mode) : State := { on with comm := { on.comm with mode := m } }

/-- An axis in a state, at a count, with a velocity and its outputs. -/
def ax (st : AxisState) (p v : Int) : AxisUnit :=
  { on.slew with
    state := st, e := p, p := p, v := v, tickV := v, referenced := true, driveEnable := st.enables
    brakeRelease := st.releases }

def slewIs (a : AxisUnit) : State := { on with slew := a }

def search (l : Leg) (v : Int) : AxisUnit :=
  { ax (.tracking false) 100 v with leg := some l, requester := some .positionUnit, mode := some (.velocity .neg 16384) }

def row (g : GuardState) (n : Need) : GuardRow where
  zone := zone12
  guard := g
  waited := false
  need := n
  window := if g = .claiming then some 100 else none

def rowsAre (s : State) (rs : List GuardRow) : State := { s with zones := { s.zones with rows := rs } }

def said (z : List PeerZone) : PeerStatus :=
  { mode := 2, slewRef := true, rakeRef := true, stopSeen := false, seqState := 0, phase := 0, layout := 0, step := 0
    slewE := 0, slewLo := 0, slewHi := 0, rakeE := 0, rakeHi := 0, zones := z, faultKind := 0, alsoSeen := false }

def rec8 (f : Freshness) : PeerRecord :=
  { station := 8, zoneRole := true, scriptRole := false, freshness := f, age := some 10
    status := some (said [{ zone := 12, adv := .none, mark := false, waited := false }]) }

def heard8 (f : Freshness) (s : State) : State := { s with peers := [rec8 f] }

def stat (m : BitVec 4) (z : List (Byte × Byte)) : StatusPayload :=
  { mode := m, flags := 3, seqState := 0, phase := 0, layout := 0, step := 0, slewE := 0, slewLo := 0, slewHi := 0
    rakeE := 0, rakeHi := 0, zones := z, fault := 0, notice := 0, outStation := 0, outTag := 0, outCode := 0 }

def jogReq : Request := { goal := .velocity .pos 1024, asker := .enableMonitor }
def seqReq : Request := { goal := .velocity .pos 1024, asker := .sequencer }

/-- A step without conditions that moves the slew, and one that waits for station 8. -/
def stepA : StepRecord :=
  { slew := some (400, 128), rake := none, order := .together, conds := [], dwell := none, limit := none }
def stepB : StepRecord := { stepA with conds := [(8, 1)] }

def slotWith (st : StepRecord) : Slot :=
  { Slot.blank with held := .programmed, header := some { layout := 5, count := 2, crc := 0 }
                    cells := .programmed st :: .programmed stepB :: List.replicate 14 .blank }

/-- A conversion of layout 5 in slot 1, in a state and phase, at step `i`. -/
def conv (st : StepRecord) (q : SeqState) (ph : Phase) (i : Nat) : State :=
  { on with
    nv := { on.nv with slots := slotWith st :: List.replicate 11 Slot.blank }
    seq := { Sequencer.cold with state := q, layout := 5, slot := 1, count := 2, step := i, phase := ph, armed := some (30, 1) } }

def enabled (s : State) : State := { s with mon := { s.mon with present := true, timer := some 150 } }

def referencedBoth (s : State) : State :=
  { s with slew := { s.slew with referenced := true }, rake := { s.rake with referenced := true } }

/-- COMMISSION with the latch set and slot 1 as given. -/
def comm (sl : Slot) : State :=
  { inMode .commission with
    store := { latch := true, job := none }
    nv := { on.nv with slots := sl :: List.replicate 11 Slot.blank }
    comm := { (inMode .commission).comm with working := some (List.replicate 152 0#8) } }

/-- An operation under way on slot 1 with the reply place 0 reserved. -/
def working (op : StoreOp) : State :=
  { comm (slotWith stepA) with
    store := { latch := true, job := some { op := op, left := 5, place := 0 } }
    bus := { on.bus with place0 := .reserved { requester := 30, kind := 9, tag := 3 } } }

def latched (k : FaultKind) : State :=
  { on with fault := { on.fault with
      record := some { kind := k, fields := { axis := some .slew, zone := none, peer := none }, place := none, slewE := 0, rakeE := 0 } } }

/-- The state after a command; unchanged where the command does not answer one. -/
def after (c : Instr) (s : State) : State :=
  match exec c s with
  | .next t => t
  | .fault _ => s
  | .refused _ => s

/-! ## Ill-formed commands are refused by the checks -/

theorem test_wf_refuses_five_zones : (Instr.statusFrame peer8 (stat 2 (List.replicate 5 (1, 0)))).wf = false := by decide
theorem test_wf_refuses_long_request : (Instr.identify (rq true (List.replicate 38 0))).wf = false := by decide
theorem test_wf_refuses_long_reply : (Instr.serviceReplyFrame con 7 1 1 1 (List.replicate 37 0)).wf = false := by decide
theorem test_wf_refuses_defined_kind :
    (Instr.undefinedServiceReq 1 (rq true [])).wf = false ∧ (Instr.undefinedServiceReq 15 (rq true [])).wf = false ∧
      (Instr.undefinedServiceReq 16 (rq true [])).wf = true := by decide

/-! ## Checks, headers and step forms -/

/-- The check values over the nine characters 1 to 9 that CRC catalogues publish for these two polynomials and presets. -/
theorem test_crc_check_values :
    crc16 [0x31, 0x32, 0x33, 0x34, 0x35, 0x36, 0x37, 0x38, 0x39] = 0x29B1 ∧
      crc8 [0x31, 0x32, 0x33, 0x34, 0x35, 0x36, 0x37, 0x38, 0x39] = 0x20 := by decide +kernel

/-- Chapter 9, worked arbitration: headers of console 30, station 7 and station 12. -/
theorem test_headers : headerByte 1 30 = 0x3E ∧ headerByte 3 7 = 0x67 ∧ headerByte 3 12 = 0x6C := by decide

/-- Section 9.2: the characters of a CONVERT of layout 5 with a delay of 300 ms, written out, without the CRC. -/
theorem test_convert_characters :
    (encodeFrame (.convert hd 5 300)).map (List.take 14) =
      some [0x5E, 0x11, 0x22, 0x33, 9, 1, 1, 0, 0, 0, 0x80, 5, 0x01, 0x2C] := by decide +kernel

/-- Section 9.2: those characters with their CRC read as the CONVERT. -/
theorem test_convert_decodes :
    decodeFrame true 7 ([0x5E, 0x11, 0x22, 0x33, 9, 1, 1, 0, 0, 0, 0x80, 5, 0x01, 0x2C] ++
      [crc8 [0x5E, 0x11, 0x22, 0x33, 9, 1, 1, 0, 0, 0, 0x80, 5, 0x01, 0x2C]]) = some (.convert hd 5 300) := by decide +kernel

/-- Section 9.2: the step form of stepA: flags 0x80, target 400, speed 128. -/
theorem test_step_form : stepA.form = [0x80, 0x00, 0x01, 0x90, 0x00, 0x80] := by decide

/-- Section 9.2: order 3 and a condition count of 3 are not valid step forms. -/
theorem test_step_form_refused : stepForms [0x0C] = none ∧ stepForms [0x03] = none := by decide

/-! ## Figures of the worked sequences -/

def cruising (p : Int) : State :=
  slewIs { ax (.tracking false) p 32768 with
    e := p - 3, mode := some (.position 10400 32768), requester := some .enableMonitor }

/-- Chapter 2, tick 0 of the canonical move: P, F and the reference +506. -/
theorem test_tick_cruises :
    let a := (after .profileTick (cruising 10000)).slew
    (a.p, a.f, a.v, a.speedRef) = (10000, 32768, 32768, 506) := by decide +kernel

/-- Chapter 2, tick 544: braking begins at D = 128. -/
theorem test_tick_brakes :
    let a := (after .profileTick (cruising 10272)).slew
    (a.p, a.f, a.v) = (10272, 32704, 32704) := by decide +kernel

/-- Chapter 2, tick 9 of the short rake move: it arrives and holds. -/
theorem test_tick_arrives :
    let s := { on with rake := { ax (.tracking false) 1205 32768 with
      f := 49152, mode := some (.position 1206 65536), requester := some .enableMonitor } }
    let a := (after .profileTick s).rake
    (a.p, a.f, a.v, a.state) = (1206, 0, 0, .tracking true) := by decide +kernel

/-- R1, section 1.1: low, low to high, low is a count of +1 and its reverse one of −1. -/
theorem test_encoder_counts :
    (after (.encoderTransition .slew true false) on).slew.e = 1 ∧
      (after (.encoderTransition .slew false true) on).slew.e = -1 := by decide +kernel

/-- R122: a start delay of 0 becomes 200 ms, one of 9,000 ms becomes 5,000. -/
theorem test_hold_off_clamps :
    let s := referencedBoth (conv stepA .idle .none 0)
    (after (.convert hd 5 0) s).seq.holdOff = some 200 ∧ (after (.convert hd 5 9000) s).seq.holdOff = some 5000 := by
  decide +kernel

/-- Chapter 8, the jog of an unreferenced slew: 40,000 becomes Vcreep, and the run is a VELOCITY jog. -/
theorem test_jog_unreferenced :
    let t := after (.jog hd 0 0 40000) (enabled on)
    t.mon.run = .jog .slew .pos .velocity ∧ t.slew.pending.map (·.goal) = some (.velocity .pos 1024) := by decide +kernel

/-- R188: 30 data bytes; R176: 18; R188: 13. -/
theorem test_report_lengths :
    on.identifyData.length = 30 ∧ on.faultData.length = 18 ∧ on.slew.captureData.length = 13 := by decide +kernel

/-- R184, R185 and chapter 11's worked sequence: PARTIAL once programmed, PROGRAMMED once finalized. -/
theorem test_store_states :
    ((after .programComplete { working (.program 2 0 [stepA]) with
        nv := (comm Slot.blank).nv }).nv.slots.map (·.held)).take 3 = [.erased, .partly, .erased] := by decide +kernel

/-- Section 11.2 and R182: the sharing peers of a zone are one field (96 for zone 0) and the consoles another (145), so a wrong
third peer and a wrong third console are reported there. -/
theorem test_commit_field_offsets :
    (fieldOf 98, fieldOf 96, fieldOf 147, fieldOf 113) = (96, 96, 145, 111) := by decide

/-- R170, R175: the station that starts the line drive senses the line ASSERTED, and a line it drives is not RELEASED. -/
theorem test_own_line_sensed :
    let t := on.report .envelopeBreach { axis := none, zone := none, peer := none }
    t.fault.drivesStop = true ∧ t.fault.lineAsserted = true ∧ (after .stopLineReleased t).fault.lineAsserted = true := by
  decide +kernel

/-- R180: with a restart pending a request out of OFF begins no motion. -/
theorem test_no_motion_before_restart :
    let s := { on with comm := { on.comm with restartPending := true } }
    (s.request .slew jogReq).slew = s.slew := by decide

/-- Section 9.2: bytes 0 to 3 and the length of a status of station 7, unit tag 1, without a zone. -/
theorem test_status_frame :
    on.statusFrame.take 6 = [0x67, 0x00, 0x00, 0x01, 25, 0x20] ∧ on.statusFrame.length = 31 := by decide +kernel

/-! ## Witnesses: for each statement, a state and operands that meet the hypotheses of each of its clauses -/

theorem hears_on : on.hears con := by unfold State.hears; decide

theorem commanded_on : on.commanded hd := by unfold State.commanded State.hears; decide

theorem requested_on : on.requested (rq true []) 0 := by unfold State.requested State.hears; decide

theorem witness_FrameRoundTrip :
    (Instr.convert hd 5 300).wf = true ∧ encodeFrame (.convert hd 5 300) ≠ none := by decide +kernel

theorem witness_StepFormRoundTrip : stepA.fits ∧ stepB.fits := by
  constructor <;>
  · refine ⟨by decide, by decide, by decide, ?_, ?_⟩ <;> intro t v h
    · obtain ⟨rfl, rfl⟩ : 400 = t ∧ 128 = v := by simpa [stepA, stepB] using h
      decide
    · simp [stepA, stepB] at h

/-- The receiver in a state, with the bits and characters it holds. -/
def rxIn (st : RxState) (bits n : Nat) : State :=
  { on with bus := { on.bus with rx := { Receiver.cold with
      state := st, bits := List.replicate bits true, buffer := List.replicate n 0#8 } } }

/-- A part held in reset, and an idle OPERATIONAL one in which every premise of the empty queue's clauses stands somewhere. -/
theorem witness_StepRunsFrontCommand :
    (let s := { State.reset with inReset := true }
     s.pending = [] ∧ s.inReset = true) ∧
    (on.pending = [] ∧ on.inReset = false ∧ on.bus.tx = .quiet ∧ on.bus.rx.state = .hunting ∧ on.bus.rx.state ≠ .between ∧
      on.seq.state ≠ .running ∧ on.bus.silence = .stopped) ∧
    (let s := rowsAre (conv stepB .running .waitPeers 0) [row .waiting .travel]
     s.comm.record = some rec0 ∧ s.seq.state ≠ .paused ∧ row .waiting .travel ∈ s.zones.rows) ∧
    ((conv stepA .running .dwell 0).seq.state = .running ∧ (conv stepA .running .dwell 0).seq.phase = .dwell) ∧
    (rxIn .data 3 1).bus.rx.state = .data ∧
    (let s := { rxIn .between 0 3 with bus := { (rxIn .between 0 3).bus with rx := { (rxIn .between 0 3).bus.rx with own := true } } }
     s.bus.tx = .quiet ∧ s.bus.rx.state = .between ∧ s.bus.rx.own = true) := by decide

theorem witness_LineBringsFrame :
    on.inReset = false ∧ on.bus.tx = .quiet ∧ on.bus.rx.state = .hunting ∧ 1 ≤ [0x67#8].length ∧ (List.replicate 46 0#8).length ≤ 46 := by decide

theorem witness_LineErrorsDiscard :
    ((rxIn .between 0 3).inReset = false ∧ (rxIn .between 0 3).bus.tx = .quiet ∧ (rxIn .between 0 3).bus.rx.state = .between ∧
      (rxIn .between 0 3).bus.rx.own = false ∧ (rxIn .between 0 3).bus.rx.lastEdge = 0) ∧
    ((rxIn .data 8 3).bus.rx.state = .data ∧ (rxIn .data 8 3).bus.rx.bits.length = 8) ∧
    ((rxIn .data 8 46).bus.rx.state = .data ∧ (rxIn .data 8 46).bus.rx.bits.length = 8 ∧
      (rxIn .data 8 46).bus.rx.buffer.length = 46) := by decide

/-- R155: after the last start edge an edge at 15 bit times goes on, at 16 and 19 discards, and at 20 begins a new frame. -/
theorem test_edge_bounds :
    let rx (n : Nat) := (after (.frameDiscard [.edge n]) (rxIn .between 0 3)).bus.rx
    ((rx 15).state, (rx 15).buffer.length, (rx 16).state, (rx 19).state) = (.startCheck, 3, .hunting, .hunting) ∧
      ((rx 20).state, (rx 20).buffer) = (.startCheck, []) := by decide +kernel

/-- R155: the edge that ends a good frame begins the next one, and the frame that it ended is taken. -/
theorem test_edge_after_good_frame :
    let good := (Instr.enableFrame con (1#32 <<< 7)).frame
    let s := { on with bus := { on.bus with rx := { Receiver.cold with state := .between, buffer := good, lastEdge := 90 } } }
    let t := after (.frameDiscard [.edge 110]) s
    (t.bus.rx.state, t.bus.rx.lastEdge, t.bus.rx.buffer, t.mon.present) = (.startCheck, 110, [], true) := by decide +kernel

theorem witness_DiscardAnnulsArmed :
    let s := conv stepA .armed .none 0
    (s.inReset = false ∧ s.bus.tx = .quiet ∧ s.bus.rx.state = .hunting ∧ decodeFrame s.comm.jumper s.comm.strapLevel [0x67] = none ∧ s.comm.mode ≠ .start ∧
      s.comm.mode ≠ .isolated) ∧ s.seq.state = .armed ∧ s.seq.armed = some (30, 1) ∧ on.seq.state ≠ .armed := by decide +kernel

theorem witness_ReceivedAndNotHandedOn :
    (State.reset.inReset = false ∧ State.reset.comm.mode = .start ∧ (Instr.stopFrame con).sender.isSome) ∧
    ((inMode .isolated).inReset = false ∧ (inMode .isolated).comm.mode = .isolated ∧ (Instr.stopFrame con).wf = true ∧
      (Instr.stopFrame con).sender = some con ∧ con.station.toNat ≠ (inMode .isolated).comm.straps) ∧
    on.hears con ∧ (Instr.serviceReplyFrame con 7 1 1 1 []).wf = true :=
  ⟨by decide, by decide, hears_on, by decide⟩

theorem witness_DuplicateIsolates :
    on.inReset = false ∧ on.comm.mode ≠ .start ∧ on.comm.straps ≠ 0 ∧ (Instr.stopFrame twin).wf = true ∧
      (Instr.stopFrame twin).sender = some twin ∧ twin.station.toNat = on.comm.straps ∧ twin.unitTag ≠ on.nv.unitTag ∧
      on.lineDriveOk ∧ on.fault.record = none := by unfold State.lineDriveOk; decide

def sending (src : TxSource) : State := { on with bus := { on.bus with tx := .sending src [0x67#8] 0 } }
def readyToSend (pending : Bool) : State :=
  { on with bus := { on.bus with rx := { Receiver.cold with recessive := 11 }, statusPending := pending, place0 := .ready [0xA7#8], readyOrder := [0] } }

theorem witness_TransmitterStartsAndEnds :
    (∀ b : Bool, (readyToSend b).inReset = false ∧ (readyToSend b).sends = true ∧ (readyToSend b).bus.tx = .quiet ∧
      (readyToSend b).bus.rx.state = .hunting ∧ (readyToSend b).bus.rx.recessive = 11 ∧ (readyToSend b).bus.statusPending = b ∧
      (readyToSend b).bus.firstDue = true ∧ (readyToSend b).bus.readyOrder = 0 :: [] ∧
      (readyToSend b).bus.place 0 = .ready [0xA7#8]) ∧
    (sending .status).bus.tx = .sending .status [0x67#8] 0 ∧
    (sending (.reply 0)).bus.tx = .sending (.reply 0) [0x67#8] 0 ∧ on.inReset = false ∧ on.bus.rx.recessive < 11 ∧
    (rxIn .between 0 3).bus.rx.state ≠ .hunting ∧
    (let s := { sending .status with bus := { (sending .status).bus with rx := (sending .status).bus.rx.startOwn } }
     s.bus.tx = .sending .status [0x67#8] 0 ∧
       s.bus.rx = { state := .startCheck, recessive := 11, buffer := [], lastEdge := 0, bits := [], own := true }) := by decide

/-- R158: a station that reads back every bit of its frame has completed it. -/
theorem test_own_frame_read_back :
    (after (.frameDiscard (frameEvents [0x67#8]))
      { sending .status with bus := { (sending .status).bus with rx := (sending .status).bus.rx.startOwn } }).bus.tx = .quiet := by
  decide +kernel

theorem witness_WithdrawReceivesOn :
    (sending .status).inReset = false ∧ (sending .status).bus.tx = .sending .status [0x67#8] 0 ∧ [0x67#8].length ≤ 46 ∧
      [0x67#8][0]? = some 0x67#8 ∧ 1 ≤ 1 ∧ 8 ≤ 8 ∧ (sending (.reply 0)).bus.tx = .sending (.reply 0) [0x67#8] 0 := by decide

def silent (n : Nat) : State := { on with bus := { on.bus with silence := .running n } }

theorem witness_ScheduleAndSilence :
    (on.inReset = false ∧ on.sends = true ∧ on.bus.nextDue.isSome) ∧
    ((silent 250).bus.silence = .running 250 ∧ (silent 250).lineDriveOk ∧ (silent 250).fault.record = none) ∧
    ∀ m, on.bus.silence ≠ .running m := by
  refine ⟨by decide, by unfold State.lineDriveOk; decide, ?_⟩
  intro m h
  cases h

/-- The slew at a count with both channels low. -/
def at_ (e : Int) : State := slewIs { ax .off e 0 with chA := false, chB := false }

theorem witness_EncoderCounts :
    ((at_ (posMax - 1)).inReset = false ∧ (true, false) = nextPositive false false ∧ posMin ≤ (at_ (posMax - 1)).slew.e ∧
      (at_ (posMax - 1)).slew.e < posMax) ∧
    ((false, false) = nextPositive false true ∧ posMin < (at_ (posMin + 1)).slew.e ∧ (at_ (posMin + 1)).slew.e ≤ posMax) := by
  decide

theorem witness_EncoderSlips :
    (on.inReset = false ∧ true = !on.slew.chA ∧ true = !on.slew.chB) ∧
    ((true, false) = nextPositive (at_ posMax).slew.chA (at_ posMax).slew.chB ∧ (at_ posMax).slew.e = posMax) ∧
    (((at_ posMin).slew.chA, (at_ posMin).slew.chB) = nextPositive false true ∧ (at_ posMin).slew.e = posMin ∧
      on.fault.record = none) := by decide

theorem witness_MarkJudged :
    (on.inReset = false ∧ on.comm.record = some rec0 ∧ on.slew.leg.any Leg.beforePreset = false ∧
      on.slew.referenced = false) ∧
    ((at_ (-1988)).slew.referenced = true ∧ ((at_ (-1988)).slew.e - (rec0.axis .slew).mark).natAbs ≤ (rec0.axis .slew).slip) ∧
    ((at_ (-1987)).slew.referenced = true ∧ (rec0.axis .slew).slip < ((at_ (-1987)).slew.e - (rec0.axis .slew).mark).natAbs) ∧
    (let s := { on with rake := { on.rake with lastDir := some .neg } }
     s.rake.refSwitch = false ∧ s.rake.lastDir = some .neg ∧ s.rake.leg.any Leg.beforePreset = false) := by decide +kernel

theorem witness_MarkPresets :
    (let s := slewIs (search .returning (-500))
     s.inReset = false ∧ s.comm.record = some rec0 ∧ s.slew.leg = some .returning ∧ Leg.returning ≠ .stopping ∧
       s.slew.state = .tracking false ∧ s.slew.requester = some .positionUnit) ∧
    (let s := { on with rake := { search .descent (-500) with lastDir := some .neg } }
     s.rake.leg = some .descent ∧ s.rake.state = .tracking false ∧ s.rake.requester = some .positionUnit ∧
       s.rake.refSwitch = false ∧ s.rake.lastDir = some .neg) ∧ on.sends = true := by decide +kernel

/-- R160, R166: a fault latched in START or in ISOLATED sets the status pending flag, starts no silence timer and no frame. -/
theorem test_request_without_sending :
    ∀ m ∈ [Mode.start, .isolated],
      let s := after .localStopChainOpen (inMode m)
      (s.bus.statusPending, s.bus.silence) = (true, .stopped) ∧
        (after .transmitStart { s with bus := { s.bus with firstDue := true, rx := { Receiver.cold with recessive := 11 } } }).bus.tx =
          .quiet := by decide +kernel

theorem witness_RakeSwitchEdges :
    (on.inReset = false ∧ on.rake.lastDir ≠ some .neg) ∧ ¬ (on.rake.lastDir = some .pos ∧ on.rake.leg = some .returning) ∧
    (let s := { on with rake := { search .returning 500 with refSwitch := true, lastDir := some .pos } }
     s.inReset = false ∧ s.rake.refSwitch = true ∧ s.rake.lastDir = some .pos ∧ s.rake.leg = some .returning ∧
       s.rake.state = .tracking false ∧ s.rake.negLimit = false ∧
       { s.rake with negLimit := true, posLimit := true }.negLimit = true) := by decide

theorem witness_EndLimitsJudged :
    (on.inReset = false ∧ on.slew.tickV = 0) ∧ ((cruising 0).slew.tickV.sign ≠ dirSign .neg) ∧
    ((cruising 0).slew.limit .pos = false ∧ (cruising 0).slew.tickV.sign = dirSign .pos ∧ (cruising 0).slew.leg = none ∧
      (cruising 0).fault.record = none) ∧
    ((search .stopping (-9)).limit .neg = false ∧ (search .stopping (-9)).tickV.sign = dirSign .neg ∧
      (search .stopping (-9)).leg = some .stopping) ∧
    (let a := (cruising 0).slew.toFaulted
     a.state = .faulted ∧ a.v = 0 ∧ a.limit .pos = false ∧ a.tickV.sign = dirSign .pos ∧ a.leg = none) := by decide

/-- R10, R20, R50: a limit that opens between a drive loss and the next tick meets the V of the last tick and is reported; after that
tick, which leaves V at 0 (R36), it latches nothing. -/
theorem test_limit_after_drive_loss :
    let s := after (.driveLoss .slew) (slewIs { (cruising 0).slew with ready := true })
    (s.slew.state, s.slew.v) = (.faulted, 0) ∧
      (after (.endLimitActive .slew .pos) s).fault.held = [.drive, .limit] ∧
      (after (.endLimitActive .slew .pos) (after .profileTick s)).fault.held = [.drive] := by decide +kernel

theorem witness_SearchMeetsLimit :
    ∀ l ∈ [Leg.outbound, .reversing, .returning, .turning, .descent],
      let s := slewIs (search l (-900))
      s.inReset = false ∧ s.slew.limit .neg = false ∧ s.slew.tickV ≠ 0 ∧ s.slew.tickV.sign = dirSign .neg ∧
        s.slew.state = .tracking false ∧ s.slew.leg = some l ∧ s.fault.record = none ∧ s.fault.alsoSeen = [] := by decide

theorem witness_TickAtRest :
    let s := { on with rake := ax .faulted 5 0 }
    s.inReset = false ∧ s.slew.atRest = true ∧ s.rake.atRest = true ∧ posMin ≤ s.slew.e ∧ s.slew.e ≤ posMax ∧
      posMin ≤ s.rake.e ∧ s.rake.e ≤ posMax := by decide

/-- The slew in TRACKING at a count with a velocity and a mode, outside every zone. -/
def tracks (p v : Int) (g : Goal) : State := slewIs { ax (.tracking false) p v with mode := some g }

theorem witness_TickMoves :
    (let s := cruising 10000
     let v' := tableCandidate 64 1024 32768 (10400 - s.slew.p) s.slew.v
     let x' := s.slew.p * 65536 + s.slew.f + v'
     s.inReset = false ∧ s.comm.record = some rec0 ∧ s.zones.rows = [] ∧ s.slew.state = .tracking false ∧
       s.slew.mode = some (.position 10400 32768) ∧ ¬ (10400 - s.slew.p = 0 ∧ s.slew.v.natAbs ≤ 64) ∧
       0 < (10400 * 65536 - x') * (10400 - s.slew.p).sign ∧ posMin ≤ x' / 65536 ∧ x' / 65536 ≤ posMax) ∧
    (∀ v ∈ [(-900 : Int), 0, 1000, 1024, 2000],
      let s := tracks 0 v (.velocity .pos 1024)
      s.slew.state = .tracking false ∧ s.slew.mode = some (.velocity .pos 1024) ∧ s.rake.atRest = true ∧
        posMin ≤ (s.slew.p * 65536 + s.slew.f + 1024) / 65536 ∧ (s.slew.p * 65536 + s.slew.f + 1024) / 65536 ≤ posMax ∧
        posMin ≤ (s.slew.p * 65536 + s.slew.f - 836) / 65536 ∧ (s.slew.p * 65536 + s.slew.f + 1936) / 65536 ≤ posMax) ∧
    (∀ k ∈ [BrakeRate.normal, .quick], ∀ v ∈ [(40 : Int), 900],
      let s := slewIs { search .reversing v with mode := some (.brake k) }
      s.slew.state = .tracking false ∧ s.slew.mode = some (.brake k) ∧ s.slew.requester = some .positionUnit ∧
        s.slew.leg = some .reversing ∧ s.slew.limit (dirOpposite (s.searchDir .slew)) = false ∧ s.slew.negLimit = false) ∧
    (∀ k ∈ [StopKind.controlled, .quick],
      let s := slewIs (ax (.stopping k) 100 900)
      s.slew.state = .stopping k ∧ s.slew.mode = none ∧ (900 : Int).natAbs - 256 ≠ 0) ∧
    (∀ c ∈ [(200 : Int), 5000],
      let z : Zone := { zone12 with ceiling := some c }
      let s0 := rowsAre { on with rake := { ax (.tracking false) 100 16384 with mode := some (.velocity .pos 65536) } }
        [{ row .free .none with zone := z }]
      let s : State := { s0 with env := { s0.env with slew := { lo := posMin, hi := posMax } } }
      s.comm.record = some rec0 ∧ s.rake.state = .tracking false ∧ s.rake.mode = some (.velocity .pos 65536) ∧
        s.env.slew.lo ≤ z.hi ∧ z.lo ≤ s.env.slew.hi ∧
        (s.rakeHiOf (s.rake.advanceBy 32768) ≤ c ∨ c < s.rakeHiOf (s.rake.advanceBy 32768))) := by decide +kernel

/-- R29, R30: in VELOCITY mode the slew gains 64, holds at its segment speed or turns round; in BRAKE mode and in a stop it loses
the rate of the mode or order. R64, R68: a ceiling of 200 under the slew's envelope lets the rake in VELOCITY mode go on at 100 and
slows it at 195. -/
theorem test_tick_modes :
    let v (s : State) := (after .profileTick s).slew.v
    (v (tracks 0 0 (.velocity .pos 1024)), v (tracks 0 1000 (.velocity .pos 1024)), v (tracks 0 (-900) (.velocity .pos 1024))) =
      (64, 1024, -836) ∧
    (v (tracks 0 900 (.brake .normal)), v (tracks 0 900 (.brake .quick)), v (slewIs (ax (.stopping .quick) 0 (-900)))) =
      (836, 644, -644) ∧
    (let s (p : Int) : State :=
       let s0 := rowsAre { on with rake := { ax (.tracking false) p 16384 with mode := some (.velocity .pos 65536) } }
         [{ row .free .none with zone := { zone12 with ceiling := some 200 } }]
       { s0 with env := { s0.env with slew := { lo := posMin, hi := posMax } } }
     ((after .profileTick (s 100)).rake.v, (after .profileTick (s 195)).rake.v) = (32768, 0)) := by decide +kernel

theorem witness_LawOfSlewEnvelope :
    let s := rowsAre (cruising 10300) [row .held .travel]
    s.inReset = false ∧ s.comm.record = some rec0 ∧ s.slew.state.profiled = true ∧
      exec .profileTick s = .next (after .profileTick s) ∧ (after .profileTick s).slew.v ≠ 0 ∧
      (after .profileTick s).env.slew.lo ≤ zone12.hi ∧ zone12.lo ≤ (after .profileTick s).env.slew.hi := by
  refine ⟨by decide, by decide, by decide, rfl, by decide +kernel, by decide +kernel, by decide +kernel⟩

theorem witness_SlewWaitsForZone :
    let a : AxisUnit := { ax (.tracking false) 10159 0 with mode := some (.position 10400 32768) }
    let s := rowsAre (slewIs a) [row .waiting .travel]
    let c := tableCandidate 64 1024 32768 (10400 - s.slew.p) 0
    s.inReset = false ∧ s.comm.record = some rec0 ∧ s.rake.atRest = true ∧ s.slew.state = .tracking false ∧
      s.slew.mode = some (.position 10400 32768) ∧ s.slew.referenced = true ∧ s.slew.v = 0 ∧ s.slew.f = 0 ∧
      10400 ≠ s.slew.p ∧ posMin ≤ s.slew.p ∧ s.slew.p ≤ posMax ∧ (s.slew.p - s.slew.e).natAbs ≤ 200 ∧
      row .waiting .travel ∈ s.zones.rows ∧ (row .waiting .travel).guard ≠ .held ∧
      (s.slewRangeOf (s.slew.advanceBy c)).touches zone12 = true ∧ c ≠ 0 := by decide +kernel

/-- The slew about to arrive at 10400, asked by `q`. -/
def arriving (q : Requester) : AxisUnit :=
  { ax (.tracking false) 10399 32768 with f := 40000, mode := some (.position 10400 32768), requester := some q }

/-- A step that moves both axes, the rake first or the slew first, and dwells. -/
def stepBoth : StepRecord := { stepA with rake := some (50, 128), order := .slewFirst, dwell := some 3000 }

/-- The sequencer's slew move about to arrive, the rake move in a state. -/
def arrivingScript (q : SeqState) (m : MoveState) : State :=
  let s := conv stepBoth q .moving 0
  { s with slew := arriving .sequencer, seq := { s.seq with slewMove := .requested, rakeMove := m } }

theorem witness_MoveAndStopEndInHold :
    (let s := { slewIs (arriving .enableMonitor) with mon := { on.mon with run := .jog .slew .pos .position } }
     s.inReset = false ∧ s.comm.record = some rec0 ∧ s.zones.rows = [] ∧ s.rake.atRest = true ∧ 0 < (rec0.axis .slew).holdTime ∧
       s.slew.state = .tracking false ∧ s.slew.mode = some (.position 10400 32768) ∧
       s.slew.requester = some .enableMonitor ∧ s.mon.run = .jog .slew .pos .position ∧ 10400 ≠ s.slew.p ∧
       (10400 - s.slew.e).natAbs ≤ 200 ∧
       (10400 * 65536 - (s.slew.p * 65536 + s.slew.f + tableCandidate 64 1024 32768 (10400 - s.slew.p) s.slew.v)) *
         (10400 - s.slew.p).sign ≤ 0) ∧
    (∀ q ∈ [SeqState.running, .paused], ∀ m ∈ [MoveState.none, .requested, .interrupted, .arrived, .heldBack],
      let s := arrivingScript q m
      s.inReset = false ∧ s.comm.record = some rec0 ∧ s.zones.rows = [] ∧ s.slew.requester = some .sequencer ∧ s.seq.state = q ∧
        s.seq.phase = .moving ∧ s.seq.move .slew = .requested ∧ s.seq.move .rake = m ∧
        0 < s.currentStep.dwell.getD 0 ∧ (s.currentStep.pair .rake).isSome = true ∧ s.rake.state = .off ∧
        s.rake.ready = false ∧ s.comm.restartPending = false ∧ s.rake.negLimit = false ∧ s.rake.posLimit = false) ∧
    (let s := { slewIs { search .stopping (-64) with state := .stopping .controlled, mode := none } with
                mon := { on.mon with run := .home .slew } }
     s.slew.state = .stopping .controlled ∧ s.slew.mode = none ∧ s.slew.pending = none ∧ s.slew.leg = some .stopping ∧
       s.mon.run = .home .slew ∧ s.slew.v.natAbs ≤ 64 ∧ 0 ≤ s.slew.f ∧ s.slew.f < 65536 ∧
       (s.slew.p - s.slew.e).natAbs ≤ 200) ∧
    (∀ p ∈ [none, some jogReq],
      let a := { ax (.stopping .quick) 100 256 with pending := p }
      a.state = .stopping .quick ∧ a.mode = none ∧ a.v.natAbs ≤ 256 ∧ a.pending = p ∧ a.leg = none ∧ a.negLimit = false ∧
        a.posLimit = false) := by decide +kernel

/-- R129, R134: the sequencer's last move ends MOVING in DWELL; with the rake HELD_BACK it is asked now, and in PAUSED not yet. -/
theorem test_script_arrival :
    let t (q : SeqState) (m : MoveState) := after .profileTick (arrivingScript q m)
    ((t .running .none).seq.phase, (t .running .none).seq.slewMove) = (.dwell, .arrived) ∧
    ((t .running .heldBack).seq.rakeMove, (t .running .heldBack).rake.state) = (.requested, .starting .awaitReady) ∧
    (t .paused .heldBack).seq.rakeMove = .heldBack := by decide +kernel

/-- The slew cruising toward zone 12 with its row in a state, and the neighbour's record FRESH or not. -/
def toward12 (g : GuardState) (f : Freshness) : State := rowsAre (heard8 f (cruising 10000)) [row g .none]

/-- An UNREFERENCED slew in TRACKING or OFF. -/
def lost (moves : Bool) (g : GuardState) : State :=
  let st : AxisState := if moves then .tracking true else .off
  rowsAre (heard8 .fresh (slewIs { ax st 0 0 with referenced := false })) [row g .none]

theorem witness_TickJudgesRows :
    let inside (g : GuardState) := rowsAre (slewIs (ax .off 10300 0)) [row g .none]
    let away (g : GuardState) := rowsAre (slewIs (ax .off 0 0)) [row g .none]
    (∀ g ∈ [GuardState.held, .claiming, .free, .waiting], (inside g).inReset = false ∧ (inside g).comm.record = some rec0 ∧
      (inside g).slew.referenced = true ∧ (inside g).zones.rows[0]? = some (row g .none) ∧ (inside g).comm.mode = .operational ∧
      (after .profileTick (inside g)).env.velLeft = 0 ∧ (after .profileTick (inside g)).env.slew.touches zone12 = true) ∧
    (∀ g ∈ [GuardState.held, .waiting], (away g).zones.rows[0]? = some (row g .none) ∧
      (after .profileTick (away g)).env.slew.touches zone12 = false ∧
      (after .profileTick (away g)).env.approach.touches zone12 = false) ∧
    (∀ g ∈ [GuardState.free, .waiting], ∀ f ∈ [Freshness.fresh, .stale],
      (toward12 g f).zones.rows = [row g .none] ∧ (after .profileTick (toward12 g f)).env.travel.isSome = true ∧
      (after .profileTick (toward12 g f)).env.approach.touches zone12 = true ∧ (toward12 g f).comm.mode = .operational ∧
      findPeer (toward12 g f).peers 8 = some (rec8 f)) ∧
    (∀ b : Bool, ∀ g ∈ [GuardState.held, .free], (lost b g).slew.referenced = false ∧ (lost b g).zones.rows = [row g .none]) := by
  decide +kernel

/-- R86, R87: a FREE row that the approach reaches claims for 100 ms past a FRESH neighbour that shows NONE, and waits past a STALE
one; R84, R95: under an UNREFERENCED slew with a motion request a row rests its claim on it, and a HELD one stays. -/
theorem test_tick_selects :
    let g (s : State) := (after .profileTick s).zones.rows.map (fun r => (r.guard, r.window, r.need))
    g (toward12 .free .fresh) = [(.claiming, some 100, .travel)] ∧ g (toward12 .free .stale) = [(.waiting, none, .travel)] ∧
      g (lost true .free) = [(.claiming, some 100, .rehold)] ∧ g (lost true .held) = [(.held, none, .rehold)] ∧
      g (lost false .held) = [(.free, none, .none)] := by decide +kernel

theorem witness_RequestTaken :
    (∀ st ∈ [AxisState.off, .starting .releasing, .stopping .quick, .settling, .tracking true, .faulted],
      let a := ax st 0 0
      a.negLimit = false ∧ a.posLimit = false ∧ a.ready = false ∧ a.state = st) ∧
    (on.comm.restartPending = false ∧ { on.comm with restartPending := true }.restartPending = true) ∧
    ({ ax .off 0 0 with negLimit := true, posLimit := true }.negLimit = true ∧ jogReq.goal ≠ .brake .quick) ∧
    ({ ax .off 0 0 with posLimit := true }.limit .pos = true ∧
      ((max slewPar.softLo (min slewPar.softHi 400)) - (ax .off 0 0).p).sign = dirSign .pos) ∧
    ({ ax .off 0 0 with posLimit := true }.limit .pos = true ∧ jogReq.goal = .velocity .pos 1024 ∧
      jogReq.asker = .enableMonitor ∧ seqReq.goal = .velocity .pos 1024 ∧ seqReq.asker = .sequencer) := by decide

def starting (l : StartLeg) : State := slewIs { ax (.starting l) 0 0 with pending := some jogReq, timer := some 100 }
def noRelease (s : State) : State :=
  { s with comm := { s.comm with record := some { rec0 with slew := { slewPar with releaseTime := 0, setTime := 0 } } } }

theorem witness_DriveReadyTaken :
    let s := starting .awaitReady
    (s.inReset = false ∧ s.slew.ready = false ∧ s.slew.state = .starting .awaitReady ∧ 0 < (s.params .slew).releaseTime) ∧
    ((noRelease s).slew.state = .starting .awaitReady ∧ ((noRelease s).params .slew).releaseTime = 0 ∧
      (noRelease s).slew.pending = some jogReq ∧ (noRelease s).slew.negLimit = false ∧ (noRelease s).slew.posLimit = false) ∧
    on.slew.state ≠ .starting .awaitReady := by decide

theorem witness_BrakeReleaseEnds :
    let s := starting .releasing
    (s.inReset = false ∧ s.slew.state = .starting .releasing ∧ s.slew.pending = some jogReq ∧ s.slew.negLimit = false ∧
      s.slew.posLimit = false) ∧
    ({ s.slew with posLimit := true }.limit .pos = true ∧ jogReq.goal = .velocity .pos 1024 ∧
      0 < (s.params .slew).setTime ∧ seqReq.asker = .sequencer) := by decide

theorem witness_HoldAndBrakeSet :
    let hold := slewIs (ax (.tracking true) 0 0)
    let set (p : Option Request) := slewIs { ax .settling 0 0 with pending := p }
    (hold.inReset = false ∧ hold.slew.state = .tracking true ∧ 0 < (hold.params .slew).setTime) ∧
    (((noRelease hold).params .slew).setTime = 0 ∧ (noRelease hold).slew.pending = none) ∧
    ((set none).slew.state = .settling ∧ (set none).slew.pending = none) ∧
    ((set (some jogReq)).slew.pending = some jogReq ∧ (set (some jogReq)).slew.ready = false ∧
      (set (some jogReq)).comm.restartPending = false ∧ (set (some jogReq)).slew.negLimit = false ∧ (set (some jogReq)).slew.posLimit = false ∧
      clampGoal slewPar true jogReq.goal = jogReq.goal) := by decide

theorem witness_DriveAndChainFault :
    (starting .awaitReady).inReset = false ∧ (starting .awaitReady).slew.state = .starting .awaitReady ∧
    (∀ st ∈ [AxisState.starting .releasing, .tracking false, .stopping .quick], st.releases = true) ∧
    (slewIs { ax .settling 0 0 with ready := true }).slew.ready = true ∧
    (slewIs { ax .settling 0 0 with ready := true }).slew.state = .settling ∧ on.slew.state = .off ∧
    on.chainOpen = false ∧ on.fault.record = none := by decide

theorem witness_ReportTaken :
    on.lineDriveOk ∧ on.fault.record = none ∧ on.sends = true ∧ FaultKind.limit ∉ on.fault.held ∧
      (conv stepA .armed .none 0).lineDriveOk ∧ (conv stepA .armed .none 0).seq.state = .armed ∧
      (conv stepA .armed .none 0).seq.armed = some (30, 1) ∧ (latched .limit).lineDriveOk := by
  unfold State.lineDriveOk; decide

theorem witness_StopsTaken :
    on.hears con ∧ (on.inReset = false ∧ on.comm.mode = .operational ∧ on.fault.lineAsserted = false) ∧
    ((conv stepA .armed .none 0).seq.state = .armed ∧ (conv stepA .armed .none 0).seq.armed = some (30, 1)) ∧
    (inMode .commission).comm.mode ≠ .operational ∧ on.fault.drivesStop = false ∧
    { on with fault := { on.fault with drivesStop := true } }.fault.drivesStop = true :=
  ⟨hears_on, by decide, by decide, by decide, by decide, by decide⟩

theorem witness_StatusHeard :
    on.hears peer8 ∧ findPeer on.peers 8 = none ∧ findPeer (heard8 .stale on).peers 8 = some (rec8 .stale) ∧
      (rec8 .stale).zoneRole = true ∧ on.seq.state.atEase = true ∧ (stat 2 [(12, 0x0F), (13, 5)]).zones.length ≤ 4 ∧
    (∀ g ∈ [GuardState.claiming, .held],
      let s := rowsAre (heard8 .fresh on) [row g .travel]
      let p := stat 2 [(12, 2)]
      s.zones.rows[0]? = some (row g .travel) ∧ 8 ∈ (row g .travel).zone.peers ∧ p.mode = 2 ∧ p.zones.length ≤ 4 ∧
        p.zones.find? (fun e => decide (e.1.toNat = zone12.number)) = some (12, 2) ∧ (2#8).extractLsb' 0 2 = 2#2) := by
  refine ⟨by unfold State.hears; decide, by decide, by decide, by decide, by decide, by decide, by decide⟩

/-- A conversion of layout 5 in WAIT_PEERS at a step that waits for step 1 of station 8, a script peer without a zone. -/
def awaiting8 (q : SeqState) : State :=
  { conv stepB q .waitPeers 0 with
    peers := [{ rec8 .stale with zoneRole := false, scriptRole := true }]
    seq := { (conv stepB q .waitPeers 0).seq with met := [false] } }

/-- A status of station 8 for layout 5, at a step and in a sequencer state. -/
def at8 (step : Byte) (q : BitVec 4) : StatusPayload := { stat 2 [] with layout := 5, step := step, seqState := q }

theorem witness_StatusHeard_script :
    (∀ q ∈ [SeqState.running, .paused],
      (awaiting8 q).inReset = false ∧ (awaiting8 q).seq.converting = true ∧ (awaiting8 q).seq.state = q ∧
      (awaiting8 q).seq.phase = .waitPeers ∧ (awaiting8 q).currentStep.conds[0]? = some (8, 1) ∧
      (awaiting8 q).seq.met[0]? = some false ∧
      findPeer (awaiting8 q).peers 8 = some { rec8 .stale with zoneRole := false, scriptRole := true }) ∧
    ((at8 0 5).seqState = 5 ∧ (at8 0 5).layout.toNat = (awaiting8 .running).seq.layout) ∧
    ((at8 2 2).seqState ≠ 5 ∧ 1 < (at8 2 2).step.toNat ∧ ¬ 1 < (at8 1 2).step.toNat ∧ (at8 1 2).phase ≠ 4) ∧
    (awaiting8 .running).currentStep.slew = some (400, 128) ∧ (awaiting8 .running).currentStep.rake = none ∧
    (awaiting8 .running).slew.state = .off ∧ (awaiting8 .running).slew.referenced = false := by decide +kernel

/-- R127, R137: station 8 past step 1 of layout 5 starts the move, in PAUSED it only sets the flag, and at step 1 it does neither;
its ABORTED aborts the conversion with the notice. -/
theorem test_status_script :
    let t (q : SeqState) (p : StatusPayload) := after (.statusFrame peer8 p) (awaiting8 q)
    ((t .running (at8 2 2)).seq.phase, (t .running (at8 2 2)).seq.slewMove) = (.moving, .requested) ∧
    ((t .paused (at8 2 2)).seq.phase, (t .paused (at8 2 2)).seq.met) = (.waitPeers, [true]) ∧
    ((t .running (at8 1 2)).seq.phase, (t .running (at8 1 2)).seq.met) = (.waitPeers, [false]) ∧
    ((t .paused (at8 0 5)).seq.state, (t .paused (at8 0 5)).fault.notice) = (.aborted, some .peerAborted) := by decide +kernel

/-- Section 9.2, R109: bits 1 and 0 of a zone byte are the advertised state, bit 2 the waited flag, bit 3 the claim mark. -/
theorem test_status_zone_entries :
    (findPeer (after (.statusFrame peer8 (stat 2 [(12, 0x0F), (13, 5)])) (heard8 .stale on)).peers 8).bind (·.status.map (·.zones)) =
      some [{ zone := 12, adv := .block, mark := true, waited := true },
        { zone := 13, adv := .claim, mark := false, waited := true }] := by decide +kernel

theorem witness_PeerAges :
    (on.inReset = false ∧ findPeer (heard8 .fresh on).peers 8 = some (rec8 .fresh) ∧ (rec8 .fresh).freshness = .fresh ∧
      (rec8 .fresh).zoneRole = true ∧ (rowsAre on [row .claiming .travel]).zones.rows[0]? = some (row .claiming .travel) ∧
      8 ∈ (row .claiming .travel).zone.peers) ∧
    (findPeer (heard8 .stale on).peers 8 = some (rec8 .stale) ∧ (rec8 .stale).freshness = .stale) ∧
    ∀ o, findPeer on.peers 8 ≠ some o := by
  refine ⟨by decide, by decide, ?_⟩
  intro o h
  cases h

theorem witness_ZoneClocks :
    (let s := rowsAre (heard8 .fresh on) [row .claiming .travel]
     s.inReset = false ∧ s.oneClaim ∧ s.zones.rows[0]? = some (row .claiming .travel) ∧ zone12.peers = [8] ∧
       findPeer s.peers 8 = some (rec8 .fresh) ∧
       ((rec8 .fresh).status.map (·.zones)) = some [{ zone := 12, adv := .none, mark := false, waited := false }] ∧
       (row .claiming .travel).need = .travel ∧ s.seq.state ≠ .paused) ∧
    (let s := rowsAre (heard8 .stale on) [row .claiming .travel]
     s.oneClaim ∧ findPeer s.peers 8 = some (rec8 .stale) ∧ (rec8 .stale).freshness ≠ .fresh) ∧
    (∀ o ∈ (rowsAre on [row .held .rehold]).zones.rows, o.guard ≠ .claiming ∧ o.need ≠ .travel) := by
  unfold State.oneClaim; decide

theorem witness_HeldRowsStand :
    let s := rowsAre on [row .held .none]
    s.zones.rows[0]? = some (row .held .none) ∧ (row .held .none).guard = .held ∧ Instr.statusDue ≠ .profileTick ∧
      Instr.statusDue ≠ .warmRestart ∧ Instr.statusDue ≠ .resetTaken ∧ (∀ p, Instr.statusDue ≠ .coldReset p) ∧
      ∀ n, Instr.statusDue ≠ .startEnd n := by
  refine ⟨by decide, by decide, by simp, by simp, by simp, by simp, by simp⟩

/-- A paused conversion whose slew still runs out the stop of the pause. -/
def pausedMoving : State :=
  let s := conv stepA .paused .moving 0
  { s with slew := ax (.stopping .controlled) 0 900, seq := { s.seq with slewMove := .interrupted } }

theorem witness_EnableHeard :
    on.hears con ∧ (on.comm.mode ≠ .unconfigured ∧ con.station.toNat ∈ on.consoles ∧ on.comm.straps ≠ 0 ∧
      hd.targets.getLsbD on.comm.straps = true) ∧ (0#32).getLsbD on.comm.straps = false ∧ on.seq.state ≠ .paused ∧
    (let s := conv stepA .paused .dwell 0
     s.mon.present = false ∧ s.seq.state = .paused ∧ s.seq.phase = .dwell) ∧
    (let s := pausedMoving
     s.mon.present = false ∧ s.seq.state = .paused ∧ s.seq.phase = .moving ∧ s.seq.rakeMove = .none ∧
       s.seq.slewMove = .interrupted ∧ s.slew.state = .stopping .controlled ∧ s.slew.negLimit = false ∧
       s.slew.posLimit = false ∧ s.currentStep.slew = some (400, 128) ∧ s.slew.referenced = true ∧
       s.slewSoft.1 ≤ 400 ∧ 400 ≤ s.slewSoft.2) := by
  refine ⟨hears_on, by decide, by decide, by decide, by decide, by decide⟩

theorem witness_EnableEnds :
    on.inReset = false ∧ on.mon.timer = none ∧
    ((enabled on).mon.timer.isSome ∧ (enabled on).mon.run = .none ∧ (enabled on).seq.state ≠ .running) ∧
    (let s0 := enabled (conv stepA .running .moving 0)
     let s := { s0 with slew := { ax (.tracking false) 0 900 with requester := some .sequencer },
                        seq := { s0.seq with slewMove := .requested } }
     s.mon.timer.isSome ∧ s.mon.run = .none ∧ s.seq.state = .running ∧ s.seq.move .slew = .requested ∧
       s.slew.state = .tracking false ∧ s.slew.requester = some .sequencer ∧ s.seq.move .rake ≠ .requested) ∧
    ({ (enabled on).mon with run := .home .slew }.run.axis = some .slew) := by decide

theorem witness_ConvertJudged :
    (State.reset.inReset = false ∧ State.reset.comm.mode = .start ∧ (inMode .isolated).comm.mode = .isolated ∧
      con.station.toNat ≠ (inMode .isolated).comm.straps) ∧
    (on.commanded hd ∧ on.slew.referenced = false) ∧
    (let s := referencedBoth (conv stepA .idle .none 0)
     s.commanded hd ∧ s.comm.mode = .operational ∧ s.seq.state = .idle ∧ s.mon.run = .none ∧ s.fault.lineAsserted = false ∧
       s.fault.record.isSome = false ∧ s.slew.referenced = true ∧ s.rake.referenced = true ∧
       s.nv.slots[0]? = some (slotWith stepA) ∧ (slotWith stepA).state = .programmed ∧
       (slotWith stepA).header.map (·.layout) = some 5 ∧ s.scriptPeers 1 2 = [8] ∧ s.comm.straps ∉ s.scriptPeers 1 2 ∧
       s.peers.length + 1 ≤ 8 ∧ (∀ sl ∈ s.nv.slots, sl.header.map (·.layout) ≠ some 6)) ∧
    (let s := referencedBoth (conv { stepA with conds := [(7, 1)] } .idle .none 0)
     s.comm.straps ∈ s.scriptPeers 1 2) := by
  refine ⟨by decide, ⟨commanded_on, by decide⟩, ?_, by decide +kernel⟩
  refine ⟨by unfold State.commanded State.hears; decide, ?_⟩
  decide +kernel

theorem witness_CancelTaken :
    on.commanded hd ∧ on.seq.state.atEase = true ∧
    (∀ q ∈ [SeqState.armed, .running, .paused], (conv stepA q .none 0).seq.state.atEase = false) ∧
    (conv stepA .running .moving 0).commanded hd ∧ (conv stepA .running .moving 0).seq.converting = true ∧
    { (conv stepA .running .moving 0).seq with rakeMove := .requested }.move .rake = .requested :=
  ⟨commanded_on, by decide, by decide, by unfold State.commanded State.hears; decide, by decide, by decide⟩

/-- Station 8, a script peer, still says ABORTED for layout 5. -/
def abortedPeer : PeerRecord :=
  { rec8 .fresh with scriptRole := true, status := some { said [] with seqState := 5, layout := 5 } }

theorem witness_HoldOffEnds :
    (on.inReset = false ∧ on.seq.state ≠ .armed) ∧
    (let s := { conv stepA .armed .none 0 with peers := [abortedPeer] }
     s.seq.state = .armed ∧ abortedPeer ∈ s.peers ∧ abortedPeer.scriptRole = true ∧ abortedPeer.freshness = .fresh ∧
       abortedPeer.status.map (·.seqState) = some 5 ∧ abortedPeer.status.map (·.layout) = some s.seq.layout) ∧
    ((conv stepA .armed .none 0).peers = [] ∧ (conv stepA .armed .none 0).mon.present = false) ∧
    (let s := enabled (conv stepB .armed .none 0)
     s.mon.present = true ∧ (8, 1) ∈ s.currentStep.conds ∧ findPeer s.peers 8 = none) ∧
    (let s := enabled (conv stepA .armed .none 0)
     s.mon.present = true ∧ s.currentStep.conds = [] ∧ s.currentStep.slew = some (400, 128) ∧ s.currentStep.rake = none ∧
       s.slew.state = .off ∧ s.slew.ready = false ∧ s.comm.restartPending = false ∧ s.slew.negLimit = false ∧
       s.slew.posLimit = false ∧ s.slew.referenced = false) := by decide +kernel

theorem witness_StepClocks :
    (on.inReset = false ∧ on.seq.state ≠ .running) ∧
    (let s := conv stepA .running .dwell 1
     s.seq.state = .running ∧ s.seq.phase = .dwell ∧ s.seq.count ≤ s.seq.step + 1 ∧ s.seq.phase ≠ .waitPeers ∧
       s.seq.phase ≠ .moving) ∧
    (let s := conv stepA .running .dwell 0
     s.seq.step + 1 < s.seq.count ∧
       (8, 1) ∈ ({ s with seq := { s.seq with step := 1 } } : State).currentStep.conds ∧ findPeer s.peers 8 = none) ∧
    (let s := conv stepA .running .moving 0
     s.seq.phase = .moving ∧ s.fault.record = none ∧ { s.seq with rakeMove := .heldBack }.rakeMove = .heldBack) ∧
    (let s := conv stepB .running .waitPeers 0
     s.seq.phase = .waitPeers ∧ s.currentStep.conds[0]? = some (8, 1) ∧
       { s.seq with met := [false] }.met[0]? = some false) := by decide +kernel

theorem witness_RunsJudged :
    on.commanded hd ∧ on.runRefusal .slew .pos = some .refusedNoEnable ∧
      on.runRefusal .slew (on.searchDir .slew) = some .refusedNoEnable :=
  ⟨commanded_on, by decide, by decide⟩

theorem witness_JogStarts :
    (enabled on).commanded hd ∧ (enabled on).runRefusal .slew .pos = none ∧ (enabled on).slew.referenced = false ∧
      slewPar.vcreep ≤ slewPar.vjog ∧ slewPar.vjog ≤ slewPar.vmax ∧ slewPar.softLo ≤ slewPar.softHi ∧
      (enabled on).slew.state = .off ∧ (enabled on).slew.ready = false ∧
    (let s := enabled (slewIs (ax .off 20000 0))
     s.runRefusal .slew .pos = none ∧ s.slew.referenced = true ∧ slewPar.softHi ≤ s.slew.p) := by
  refine ⟨by unfold State.commanded State.hears; decide, by decide⟩

theorem witness_JogEnds :
    (let s := { on with mon := { on.mon with run := .jog .slew .pos .position } }
     s.commanded hd ∧ s.comm.mode = .operational ∧ s.mon.run = .jog .slew .pos .position) ∧
    (on.commanded hd ∧ ∀ e k, on.mon.run ≠ .jog .slew e k) ∧
    ((inMode .unconfigured).hears con ∧ (inMode .unconfigured).comm.restartPending = false ∧
      inTargets hd.targets (inMode .unconfigured).station = true) := by
  refine ⟨⟨by unfold State.commanded State.hears; decide, by decide⟩, ⟨commanded_on, nofun⟩, by unfold State.hears; decide⟩

theorem witness_HomeStarts :
    (enabled on).commanded hd ∧ (enabled on).runRefusal .slew ((enabled on).searchDir .slew) = none ∧
      (enabled on).slew.state = .off ∧ (enabled on).slew.ready = false :=
  ⟨by unfold State.commanded State.hears; decide, by decide⟩

theorem witness_ClearFaultTaken :
    (on.commanded hd ∧ on.fault.record = none) ∧
    ((latched .limit).commanded hd ∧ (latched .limit).fault.record.map (·.kind) = some .limit ∧
      (latched .limit).conditionGone .limit none = true ∧ (latched .limit).fault.alsoSeen = []) ∧
    (latched .duplicateStation).conditionGone .duplicateStation none = false ∧
    ({ axis := some .slew, zone := some 12, peer := none } : FaultFields).axis = some .slew ∧
    ({ axis := some .slew, zone := some 12, peer := none } : FaultFields).zone = some 12 := by
  refine ⟨⟨commanded_on, by decide⟩, ⟨by unfold State.commanded State.hears; decide, by decide⟩, by decide, by decide, by decide⟩

/-- R97, R98, R173: a neighbour that shows HELD for the zone of a HELD row keeps ZONE_CONFLICT active, and NONE lets it go. -/
theorem test_zone_conflict_condition :
    let s (a : Adv) := rowsAre { on with peers := [{ rec8 .fresh with
      status := some (said [{ zone := 12, adv := a, mark := false, waited := false }]) }] } [row .held .none]
    (s .held).conditionGone .zoneConflict none = false ∧ (s .none).conditionGone .zoneConflict none = true := by
  decide +kernel

/-- R36: a FAULTED axis that CLEAR_FAULT takes to OFF has P at E. -/
theorem test_clear_fault_takes_e :
    let s := { latched .limit with slew := { ax .faulted 100 0 with e := 90 } }
    ((after (.clearFault hd) s).slew.p, (after (.clearFault hd) s).slew.state) = (90, .off) := by decide +kernel

def restarting : State := { on with comm := { on.comm with restartPending := true, restartLeft := some 250 } }
def full : State := { on with bus := { on.bus with place0 := .ready [], place1 := .ready [], readyOrder := [0, 1] } }

theorem witness_TurnedAway :
    ((Instr.cancel hd).commandHead = some hd ∧ on.hears hd.sender) ∧
    ((0#32).getLsbD on.comm.straps = false ∧ peer8.station.toNat ∉ on.consoles ∧ on.comm.mode ≠ .unconfigured) ∧
    ((inMode .unconfigured).hears con ∧ hd.targets.getLsbD (inMode .unconfigured).comm.straps = true) ∧
    (restarting.hears con ∧ restarting.comm.restartPending = true ∧ con.station.toNat ∈ restarting.consoles) ∧
    (on.commanded hd ∧ 1 < (2#8).toNat) ∧
    ((Instr.identify (rq true [])).serviceReq = some (1, rq true []) ∧ (rq true []).wf = true ∧
      (8#8).toNat ≠ on.comm.straps ∧ full.bus.freePlace = none ∧ (rq true []).target.toNat = restarting.comm.straps ∧
      restarting.bus.freePlace = some 0) := by
  refine ⟨⟨by decide, hears_on⟩, by decide, ⟨by unfold State.hears; decide, by decide⟩,
    ⟨by unfold State.hears; decide, by decide⟩, ⟨commanded_on, by decide⟩, by decide⟩

theorem witness_ReadsAnswered :
    (on.requested (rq true []) 0 ∧ on.comm.restartPending = false ∧ on.nv.slots.length = 12 ∧ (rq true []).args = []) ∧
    (on.requested (rq true [8]) 0 ∧ findPeer (heard8 .fresh on).peers (8#8).toNat = some (rec8 .fresh) ∧
      findPeer on.peers (8#8).toNat = none ∧ 31 < (32#8).toNat) ∧
    ((rq true [0]).args = [axisByte .slew] ∧ (rq true [1]).args = [axisByte .rake] ∧ 1 < (2#8).toNat) ∧
    (on.requested (rq true [12, 0]) 0 ∧ on.nv.slots[(12#8).toNat - 1]? = some Slot.blank ∧ on.store.job = none ∧
      (working (.erase 1)).store.job.isSome ∧ 12 < (13#8).toNat ∧ 15 < (16#8).toNat) := by
  unfold State.requested State.hears; decide

theorem witness_ModeRequests :
    (on.requested (rq true []) 0 ∧ on.comm.restartPending = false ∧ (rq true []).jumper = true ∧ on.comm.mode = .operational ∧
      on.seq.state.atEase = true ∧ on.mon.run = .none ∧ on.slew.state = .off ∧ on.rake.state = .off ∧ on.store.job = none) ∧
    (on.requested (rq false []) 0 ∧ (rq false []).jumper = false) ∧
    ((inMode .commission).requested (rq true []) 0 ∧ (inMode .commission).comm.mode = .commission) ∧
    ((slewIs (ax .settling 0 0)).requested (rq true []) 0 ∧ (slewIs (ax .settling 0 0)).slew.state ≠ .off) ∧
    ((inMode .unconfigured).requested (rq true []) 0 ∧ (inMode .unconfigured).comm.mode = .unconfigured) := by
  unfold State.requested State.hears
  refine ⟨by decide, by decide, by decide, by decide, by decide⟩

/-- A record that passes R181, in the layout of section 11.2: the worked parameters, zone 12 shared with station 8, console 30. -/
def goodBytes : List Byte :=
  [0xFF, 0xB1, 0xE0, 0, 0x4E, 0x20, 0xFF, 0xF8, 0x30, 0x0C, 0x01, 0x01, 0, 0, 0x01, 0, 0, 0, 0x04, 0, 0, 0xC0,
    0, 0, 0x40, 0, 0, 0x40, 0x01, 0, 0, 0xC8, 0x20, 0, 0x28, 0x02, 0x58, 0, 0x78, 0, 0xC8, 0, 0x96] ++
  [0xFF, 0xFF, 0x9C, 0, 0x13, 0x88, 0, 0, 0, 0x0C, 0x01, 0x80, 0, 0x01, 0x80, 0, 0, 0x04, 0, 0, 0xC0, 0, 0,
    0x40, 0, 0x40, 0, 0x80, 0, 0, 0xC8, 0x20, 0, 0x0A, 0, 0x78, 0, 0xC8, 0, 0x96] ++
  [0x01, 0x0C, 0, 0x27, 0xD8, 0, 0x2A, 0x94, 0, 0, 0, 0, 0x01, 0x08, 0, 0] ++ List.replicate 45 0 ++
  [0x01, 0x1E, 0, 0, 0, 0x1E, 0, 0x78]

/-- R181, R182: the straps as they stand at the CONFIG_COMMIT are the own number; with zone 12 shared with station 8, straps 7
pass and straps 8 fail at the sharing peers of entry 0, offset 96. -/
theorem test_commit_reads_straps :
    let s := comm Slot.blank
    let s : State := { s with comm := { s.comm with working := some goodBytes } }
    let t (n : BitVec 5) := after (.configCommit { rq true [] with straps := n }) s
    (t 7).store.job.isSome = true ∧ (t 8).store.job = none ∧ firstWrong 8 goodBytes = 96 := by decide +kernel

theorem witness_StoreRequests :
    (on.requested (rq true []) 0 ∧ (Instr.writeEnable (rq true [])).serviceReq = some (8, rq true []) ∧
      on.comm.mode ≠ .commission) ∧
    (let s := comm Slot.blank
     s.requested (rq true []) 0 ∧ s.comm.restartPending = false ∧ s.comm.mode = .commission ∧ s.store.job = none ∧
       s.store.latch = true ∧ s.comm.working = some (List.replicate 152 0#8) ∧
       s.nv.slots[(1#8).toNat - 1]? = some Slot.blank ∧ s.nv.slots[(12#8).toNat - 1]? = some Slot.blank ∧
       Slot.blank.state = .erased ∧ stepForms stepA.form = some [stepA] ∧ Slot.blank.cells[15]? = some .blank ∧
       (rq true (120 :: List.replicate 32 7)).wf = true ∧ 120 + 32 ≤ 152 ∧ 152 < 121 + 32 ∧
       (rq true (1 :: 15 :: stepA.form)).wf = true ∧ 16 < (16#8).toNat + 1 ∧ recordOk 7 goodBytes = true ∧
       recordOk 7 (List.replicate 152 0#8) = false ∧ (rq true []).straps.toNat = 7) ∧
    ((working (.erase 1)).store.job.isSome ∧ (slotWith stepA).state = .programmed ∧
      { slotWith stepA with held := .locked }.state = .locked ∧
      { comm Slot.blank with store := { latch := false, job := none } }.store.latch = false) := by
  unfold State.requested State.hears; decide +kernel

theorem witness_StoreCompletes :
    ∀ op ∈ [StoreOp.erase 1, .program 1 2 [stepB], .finalize 1 5 2 0, .lock 1, .commit (List.replicate 152 0#8)],
      (working op).inReset = false ∧ (working op).nv.slots[1 - 1]? = some (slotWith stepA) ∧
        (working op).bus.place 0 = .reserved { requester := 30, kind := 9, tag := 3 } ∧
        (working op).store.job = some { op := op, left := 5, place := 0 } := by decide

theorem witness_Resets :
    on.store.job = none ∧ (working (.commit [])).store.job = some { op := .commit [], left := 5, place := 0 } ∧
      (working (.erase 1)).nv.slots[1 - 1]? = some (slotWith stepA) ∧
      (restarting.inReset = false ∧ restarting.comm.restartPending = true ∧ restarting.comm.mode ≠ .isolated) ∧
      on.comm.restartPending = false := by decide

/-- The first START of a factory part, with strap value 7 and the chain as given. -/
def startingUp (chain warm : Bool) : State :=
  { State.reset with chainOpen := chain, comm := { State.reset.comm with warm := warm, prior := some rec0 } }

/-- Section 11.2: those 152 bytes pass the range checks of R181 and read as the fields put in. -/
theorem test_record_read :
    goodBytes.length = 152 ∧ recordOk 7 goodBytes = true ∧ (readRecord goodBytes).slew = slewPar ∧
      (readRecord goodBytes).rake.softLo = -100 ∧ (readRecord goodBytes).zones = [zone12] ∧
      (readRecord goodBytes).consoles = [30] := by decide +kernel

set_option maxRecDepth 20000 in
theorem witness_StartEnds_good :
    let bs := goodBytes ++ bytes16 (crc16 goodBytes)
    (7#5).toNat ≠ 0 ∧ bs.length = 154 ∧ crc16 (bs.take 152) = join16 (bs.getD 152 0) (bs.getD 153 0) ∧
      recordOk 7 bs = true := by decide +kernel

theorem witness_StartEnds :
    on.comm.mode ≠ .start ∧
    ∀ b w : Bool, (startingUp b w).inReset = false ∧ (startingUp b w).comm.mode = .start ∧ (startingUp b w).chainOpen = b ∧
      (startingUp b w).fault.lineAsserted = false ∧ (startingUp b w).comm.warm = w ∧
      (startingUp b w).nv.record.length = 154 ∧
      { (startingUp b w).fault with lineAsserted := true }.lineAsserted = true := by decide +kernel

/-- A station that meets the premises of the invariants away from reset: the slew moving in a zone it holds. -/
def busy : State := rowsAre (heard8 .fresh (cruising 10300)) [row .held .travel]

theorem witness_OutputsKept_TablesKept :
    busy.outputsOk ∧ busy.lineDriveOk ∧ busy.oneClaim ∧ busy.peerViewOk ∧ busy.latchOk ∧ step busy ≠ step State.reset := by
  unfold State.outputsOk AxisUnit.outputsOk State.lineDriveOk State.oneClaim State.peerViewOk State.latchOk
  refine ⟨by decide, by decide, by decide, by decide, by decide, ?_⟩
  intro h
  have h := congrArg (fun o : Host.Outcome State Fault Refusal => match o with | .next t => t.comm.straps | _ => 0) h
  revert h
  decide +kernel

theorem witness_SpeedsKept : busy.speedsOk := by
  refine ⟨⟨by decide, ?_, ?_, by decide, by decide, by decide⟩,
    ⟨by decide, ?_, ?_, by decide, by decide, by decide⟩, by decide⟩ <;> intro g h <;> cases h
  decide

theorem witness_StoreLawsKept :
    let s := working (.lock 1)
    s.latchOk ∧ s.jobOk ∧ ({ slotWith stepA with held := .locked } : Slot).state = .locked := by
  refine ⟨by unfold State.latchOk; decide, ?_, by decide⟩
  rintro j h
  cases h
  refine ⟨by decide, ?_⟩
  rintro n h
  cases h
  refine ⟨by decide, ?_⟩
  rintro sl h
  cases h
  decide

theorem witness_StepIndexKept : (conv stepA .running .moving 1).stepIndexOk := by
  refine ⟨by decide, ?_, ?_, ?_⟩
  · intro _ sl hs h hh _
    have hs : sl = slotWith stepA ∨ sl = Slot.blank := by
      have hs : sl ∈ slotWith stepA :: List.replicate 11 Slot.blank := hs
      simpa [List.mem_replicate] using hs
    rcases hs with rfl | rfl
    · cases hh
      decide
    · cases hh
  · intro j _ _ _ _ h
    cases h
  · intro j _ h
    cases h

end Sys2Proof.Tests
end

-- ==== Proofs: what a stop and a report change ====
section
/-! SUPPORT. What stops, reports and the ends of conversions and runs change, said once: an axis goes to `AxisUnit.halted`, the
sequencer and the active run end, and the `Frame` around them stays. -/

namespace Sys2Proof.Machine

/-! ## Commands that reach a part out of reset -/

theorem live_of_not_inReset (f : State → State) {s : State} (h : s.inReset = false) : live f s = .next (f s) := by
  simp [live, h]

/-! ## The frame of a stop -/

/-- What no stop, report or ending changes of the state beside the axes: all but the sequencer, the enable monitor, the fault
unit, the bus's queue and the zone wait timer. Peer records go only where R107 drops them. -/
structure Frame (s t : State) : Prop where
  pending : t.pending = s.pending
  inReset : t.inReset = s.inReset
  nv : t.nv = s.nv
  comm : t.comm = s.comm
  store : t.store = s.store
  tickLeft : t.tickLeft = s.tickLeft
  env : t.env = s.env
  rows : t.zones.rows = s.zones.rows
  chainOpen : t.chainOpen = s.chainOpen
  fresh : t.fresh = s.fresh
  nextDue : t.bus.nextDue = s.bus.nextDue
  firstDue : t.bus.firstDue = s.bus.firstDue
  peers : dropScript s.peers = s.peers → t.peers = s.peers

theorem Frame.refl (s : State) : Frame s s := ⟨rfl, rfl, rfl, rfl, rfl, rfl, rfl, rfl, rfl, rfl, rfl, rfl, fun _ => rfl⟩

theorem Frame.trans {s t u : State} (h : Frame s t) (k : Frame t u) : Frame s u where
  pending := k.pending.trans h.pending
  inReset := k.inReset.trans h.inReset
  nv := k.nv.trans h.nv
  comm := k.comm.trans h.comm
  store := k.store.trans h.store
  tickLeft := k.tickLeft.trans h.tickLeft
  env := k.env.trans h.env
  rows := k.rows.trans h.rows
  chainOpen := k.chainOpen.trans h.chainOpen
  fresh := k.fresh.trans h.fresh
  nextDue := k.nextDue.trans h.nextDue
  firstDue := k.firstDue.trans h.firstDue
  peers hp := (k.peers (by rw [h.peers hp]; exact hp)).trans (h.peers hp)

theorem Frame.ofSetAxis (s : State) (x : Axis) (a : AxisUnit) : Frame s (s.setAxis x a) := by
  cases x <;> exact ⟨rfl, rfl, rfl, rfl, rfl, rfl, rfl, rfl, rfl, rfl, rfl, rfl, fun _ => rfl⟩

theorem Frame.ofSeqMon (s : State) (q : Sequencer) (m : EnableMonitor) : Frame s { s with seq := q, mon := m } :=
  ⟨rfl, rfl, rfl, rfl, rfl, rfl, rfl, rfl, rfl, rfl, rfl, rfl, fun _ => rfl⟩

theorem Frame.ofFault (s : State) (f : FaultUnit) : Frame s { s with fault := f } :=
  ⟨rfl, rfl, rfl, rfl, rfl, rfl, rfl, rfl, rfl, rfl, rfl, rfl, fun _ => rfl⟩

theorem Frame.params {s t : State} (h : Frame s t) (x : Axis) : t.params x = s.params x := by
  unfold State.params; rw [h.comm]

@[simp] theorem State.setAxis_params (s : State) (x y : Axis) (a : AxisUnit) : (s.setAxis x a).params y = s.params y :=
  (Frame.ofSetAxis s x a).params y

theorem eq_or_eq_otherAxis (x y : Axis) : y = x ∨ y = otherAxis x := by cases x <;> cases y <;> decide

/-! ## A report to a requester -/

/-- A search leg that stays or ends, all else of the axis kept. -/
def AxisUnit.LegEnds (a b : AxisUnit) : Prop := b = { a with leg := b.leg } ∧ (b.leg = a.leg ∨ b.leg = none)

theorem AxisUnit.LegEnds.refl (a : AxisUnit) : a.LegEnds a := ⟨rfl, .inl rfl⟩

theorem AxisUnit.LegEnds.clear (a : AxisUnit) : a.LegEnds { a with leg := none } := ⟨rfl, .inr rfl⟩

theorem AxisUnit.LegEnds.trans {a b c : AxisUnit} (h : a.LegEnds b) (k : b.LegEnds c) : a.LegEnds c := by
  obtain ⟨hb, hl⟩ := h
  obtain ⟨kc, kl⟩ := k
  refine ⟨by rw [kc, hb], ?_⟩
  rcases kl with e | e
  · rw [e]; exact hl
  · exact .inr e

/-- The sequencer's share of a motion-stopped report: at most a move state of a conversion in progress changes (R129, R134). -/
def Sequencer.MarksMoves (q r : Sequencer) : Prop :=
  r = { q with slewMove := r.slewMove, rakeMove := r.rakeMove } ∧ (q.converting = false → r = q)

theorem Sequencer.MarksMoves.refl (q : Sequencer) : q.MarksMoves q := ⟨rfl, fun _ => rfl⟩

theorem Sequencer.MarksMoves.state {q r : Sequencer} (h : q.MarksMoves r) : r.state = q.state := by rw [h.1]

theorem Sequencer.MarksMoves.converting {q r : Sequencer} (h : q.MarksMoves r) : r.converting = q.converting := by
  unfold Sequencer.converting; rw [h.state]

theorem Sequencer.MarksMoves.trans {q r u : Sequencer} (h : q.MarksMoves r) (k : r.MarksMoves u) : q.MarksMoves u :=
  ⟨by rw [k.1, h.1], fun c => (k.2 (h.converting.trans c)).trans (h.2 c)⟩

theorem Sequencer.MarksMoves.setMove {q : Sequencer} (x : Axis) (m : MoveState) (c : q.converting = true) :
    q.MarksMoves (q.setMove x m) := by
  cases x <;> exact ⟨rfl, fun e => by simp [c] at e⟩

/-- A run that goes on or ends. -/
def EnableMonitor.RunEnds (m n : EnableMonitor) : Prop := n = m ∨ n = { m with run := .none }

theorem EnableMonitor.RunEnds.trans {m n o : EnableMonitor} (h : m.RunEnds n) (k : n.RunEnds o) : m.RunEnds o := by
  rcases h with rfl | rfl
  · exact k
  · rcases k with rfl | rfl <;> exact .inr rfl

theorem EnableMonitor.RunEnds.ended {m n : EnableMonitor} (h : m.RunEnds n) :
    { n with run := .none } = { m with run := .none } := by rcases h with rfl | rfl <;> rfl

/-- What the reports to the requesters of axis `x` change: its search leg may end, the sequencer may mark a move interrupted, and
the active run may end. -/
structure Tells (x : Axis) (s t : State) : Prop where
  frame : Frame s t
  axis : (s.axis x).LegEnds (t.axis x)
  other : t.axis (otherAxis x) = s.axis (otherAxis x)
  seq : s.seq.MarksMoves t.seq
  mon : s.mon.RunEnds t.mon
  fault : t.fault = s.fault
  bus : t.bus = s.bus

theorem Tells.refl (x : Axis) (s : State) : Tells x s s := ⟨.refl s, .refl _, rfl, .refl _, .inl rfl, rfl, rfl⟩

theorem Tells.trans {x : Axis} {s t u : State} (h : Tells x s t) (k : Tells x t u) : Tells x s u :=
  ⟨h.frame.trans k.frame, h.axis.trans k.axis, k.other.trans h.other, h.seq.trans k.seq, h.mon.trans k.mon,
    k.fault.trans h.fault, k.bus.trans h.bus⟩

theorem Tells.ofSeq (x : Axis) {s : State} {q : Sequencer} (h : s.seq.MarksMoves q) : Tells x s { s with seq := q } :=
  ⟨.ofSeqMon s q s.mon, by cases x <;> exact .refl _, by cases x <;> rfl, h, .inl rfl, rfl, rfl⟩

theorem Tells.ofMon (x : Axis) (s : State) : Tells x s { s with mon := { s.mon with run := .none } } :=
  ⟨.ofSeqMon s s.seq _, by cases x <;> exact .refl _, by cases x <;> rfl, .refl _, .inr rfl, rfl, rfl⟩

theorem Tells.clearLeg (x : Axis) (s : State) : Tells x s (s.setAxis x { s.axis x with leg := none }) :=
  ⟨.ofSetAxis .., by rw [State.setAxis_axis]; exact .clear _, by simp, by simpa using .refl _, .inl (by simp), by simp,
    by simp⟩

theorem State.tellStopped_tells (s : State) (x : Axis) (q : Option Requester) : Tells x s (s.tellStopped x q) := by
  match q with
  | none => exact .refl x s
  | some .sequencer =>
    simp only [State.tellStopped]
    split
    · next h => exact .ofSeq x (.setMove x _ h.1)
    · exact .refl x s
  | some .enableMonitor =>
    simp only [State.tellStopped]
    split
    · split
      · exact .ofMon x s
      · exact .refl x s
    · exact .refl x s
  | some .positionUnit =>
    simp only [State.tellStopped]
    split
    · exact .refl x s
    · split
      · exact (Tells.clearLeg x s).trans (.ofMon x _)
      · exact .clearLeg x s

theorem State.stopEnded_tells (s : State) (x : Axis) : Tells x s (s.stopEnded x) := by
  unfold State.stopEnded
  split
  · simp only
    split
    · exact (Tells.clearLeg x s).trans (.ofMon x _)
    · exact .clearLeg x s
  · exact .refl x s

/-! ## A stop of one axis -/

/-- What a stop order of kind `k` makes of an axis before its requester is told (R31, R43, R48); `n` is the brake set time. -/
def AxisUnit.halted (n : Nat) (k : StopKind) (a : AxisUnit) : AxisUnit :=
  match a.state with
  | .tracking false => { a.enter (.stopping k) none with mode := none, requester := none }
  | .stopping j => { a with state := .stopping (j.meet k), pending := none }
  | .starting .awaitReady => { a.toOff with pending := none }
  | .starting .releasing => { a.toSettling n with pending := none }
  | .tracking true => { a with pending := none }
  | .off => { a with pending := none }
  | .settling => { a with pending := none }
  | .faulted => { a with pending := none }

/-- A stop order sets the axis to `halted` and reports. -/
theorem State.stopAxis_tells (s : State) (x : Axis) (k : StopKind) :
    Tells x (s.setAxis x ((s.axis x).halted (s.params x).setTime k)) (s.stopAxis x k) := by
  unfold State.stopAxis AxisUnit.halted
  rcases h : (s.axis x).state with _ | (_ | _) | (_ | _) | j | _ | _ <;> simp only [h]
  case tracking.false => exact State.tellStopped_tells _ _ _
  case stopping => exact State.tellStopped_tells _ _ _
  all_goals exact (State.tellStopped_tells _ _ _).trans (State.stopEnded_tells _ _)

/-- An axis that has met one stop order of kind `k`, or several: halted, with its search leg perhaps ended, and a request
that waited perhaps left alone where the stop began a controlled run down from TRACKING. -/
structure AxisUnit.HaltedTo (n : Nat) (k : StopKind) (a b : AxisUnit) : Prop where
  eq : b = { a.halted n k with leg := b.leg, pending := b.pending }
  leg : b.leg = a.leg ∨ b.leg = none
  pending : b.pending = none ∨ a.state = .tracking false ∧ b.pending = a.pending

/-- In TRACKING with the hold running, OFF, SETTLING and FAULTED a stop only drops a waiting request (R48). -/
theorem AxisUnit.halted_standing {n : Nat} {k : StopKind} {a : AxisUnit}
    (h : a.state ∈ [.tracking true, .off, .settling, .faulted]) : a.halted n k = { a with pending := none } := by
  unfold AxisUnit.halted
  split <;> simp_all

/-- What a stop of kind `k` does to an axis of each state. -/
theorem AxisUnit.halted_cases (n : Nat) (k : StopKind) (a : AxisUnit) :
    (a.state = .tracking false ∧
      a.halted n k = { a.enter (.stopping k) none with mode := none, requester := none }) ∨
    (∃ j, a.state = .stopping j ∧ a.halted n k = { a with state := .stopping (j.meet k), pending := none }) ∨
    (a.state = .starting .awaitReady ∧ a.halted n k = { a.toOff with pending := none }) ∨
    (a.state = .starting .releasing ∧ a.halted n k = { a.toSettling n with pending := none }) ∨
    (a.state ∈ [.tracking true, .off, .settling, .faulted] ∧ a.halted n k = { a with pending := none }) := by
  unfold AxisUnit.halted
  split <;> simp_all

theorem AxisUnit.halted_leg (n : Nat) (k : StopKind) (a : AxisUnit) : (a.halted n k).leg = a.leg := by
  unfold AxisUnit.halted AxisUnit.toSettling
  split <;> (try split) <;> rfl

theorem AxisUnit.halted_pending (n : Nat) (k : StopKind) (a : AxisUnit) :
    (a.halted n k).pending = none ∨ a.state = .tracking false ∧ (a.halted n k).pending = a.pending := by
  unfold AxisUnit.halted
  split
  · next h => exact .inr ⟨h, rfl⟩
  all_goals exact .inl rfl

/-- A further stop of the same kind finds nothing left to do but a waiting request to drop. -/
theorem AxisUnit.halted_halted (n : Nat) (k : StopKind) (a : AxisUnit) (l : Option Leg) (p : Option Request) :
    ({ a.halted n k with leg := l, pending := p } : AxisUnit).halted n k =
      { a.halted n k with leg := l, pending := none } := by
  obtain ⟨-, e⟩ | ⟨j, -, e⟩ | ⟨-, e⟩ | ⟨-, e⟩ | ⟨m, e⟩ := a.halted_cases n k <;> rw [e]
  · cases k <;> rfl
  · cases j <;> cases k <;> rfl
  · rfl
  · unfold AxisUnit.toSettling; split <;> rfl
  · exact AxisUnit.halted_standing m

theorem AxisUnit.HaltedTo.ofLegEnds {n : Nat} {k : StopKind} {a b : AxisUnit} (h : (a.halted n k).LegEnds b) :
    a.HaltedTo n k b := by
  obtain ⟨hb, hl⟩ := h
  have hp : b.pending = (a.halted n k).pending := by rw [hb]
  refine ⟨by rw [hp]; exact hb, by rw [a.halted_leg] at hl; exact hl, by rw [hp]; exact a.halted_pending n k⟩

theorem AxisUnit.HaltedTo.legEnds {n : Nat} {k : StopKind} {a b c : AxisUnit} (h : a.HaltedTo n k b) (e : b.LegEnds c) :
    a.HaltedTo n k c := by
  obtain ⟨hb, hl, hp⟩ := h
  obtain ⟨ec, el⟩ := e
  have hc : c.pending = b.pending := by rw [ec]
  refine ⟨by rw [hc, ec, hb], ?_, by rw [hc]; exact hp⟩
  exact el.elim (fun e => by rw [e]; exact hl) .inr

theorem AxisUnit.HaltedTo.trans {n : Nat} {k : StopKind} {a b c : AxisUnit} (h : a.HaltedTo n k b)
    (e : b.HaltedTo n k c) : a.HaltedTo n k c := by
  have hb : b.halted n k = { a.halted n k with leg := b.leg, pending := none } := by
    rw [h.eq]; exact AxisUnit.halted_halted ..
  have hs : b.state ≠ .tracking false := by
    rw [h.eq]
    obtain ⟨-, e⟩ | ⟨j, -, e⟩ | ⟨-, e⟩ | ⟨-, e⟩ | ⟨m, e⟩ := a.halted_cases n k <;> rw [e]
    · simp
    · simp
    · simp [AxisUnit.toOff]
    · unfold AxisUnit.toSettling; split <;> simp [AxisUnit.toOff]
    · rintro q; simp only at q; simp [q] at m
  refine ⟨by rw [e.eq, hb], e.leg.elim (fun q => by rw [q]; exact h.leg) .inr, .inl ?_⟩
  exact e.pending.resolve_right fun q => hs q.1

/-- What every state of the axis keeps through a stop. -/
theorem AxisUnit.halted_sensesSame (n : Nat) (k : StopKind) (a : AxisUnit) : a.sensesSame (a.halted n k) := by
  obtain ⟨-, e⟩ | ⟨j, -, e⟩ | ⟨-, e⟩ | ⟨-, e⟩ | ⟨-, e⟩ := a.halted_cases n k <;> rw [e]
  case inr.inr.inr.inl => unfold AxisUnit.toSettling; split <;> (repeat' constructor)
  all_goals (repeat' constructor)

theorem AxisUnit.sensesSame.refl (a : AxisUnit) : a.sensesSame a := by repeat' constructor

theorem AxisUnit.HaltedTo.sensesSame {n : Nat} {k : StopKind} {a b : AxisUnit} (h : a.HaltedTo n k b) :
    a.sensesSame b := by
  rw [h.eq]; exact a.halted_sensesSame n k

/-- A halted axis is as R31, R43 and R48 leave it. -/
theorem AxisUnit.HaltedTo.stoppedBy {n : Nat} {k : StopKind} {a b : AxisUnit} (h : a.HaltedTo n k b) :
    a.stoppedBy k b := by
  obtain ⟨hb, -, hp⟩ := h
  have drop (ne : a.state ≠ .tracking false) : b.pending = none := hp.resolve_right fun q => ne q.1
  unfold AxisUnit.stoppedBy
  obtain ⟨s, e⟩ | ⟨j, s, e⟩ | ⟨s, e⟩ | ⟨s, e⟩ | ⟨m, e⟩ := a.halted_cases n k
  · rw [s, hb, e]; exact ⟨rfl, rfl, rfl, rfl⟩
  · have d := drop (by simp [s])
    rw [s]; rw [e] at hb; rw [hb]
    exact ⟨by cases j <;> rfl, rfl, rfl, d⟩
  · have d := drop (by simp [s])
    rw [s]; rw [e] at hb; rw [hb]
    exact ⟨rfl, rfl, rfl, d⟩
  · have d := drop (by simp [s])
    rw [s]; rw [e] at hb; rw [hb]
    refine ⟨?_, ?_, d⟩ <;> unfold AxisUnit.toSettling <;> split <;> simp [AxisUnit.toOff, AxisState.releases]
  · have d := drop (by rintro q; simp [q] at m)
    rw [e] at hb
    have hst : b.state = a.state := by rw [hb]
    have ht : b.timer = a.timer := by rw [hb]
    simp only [List.mem_cons, List.not_mem_nil, or_false] at m
    rcases m with s | s | s | s <;> simp [s, hst, ht, d]

theorem State.stopAxis_frame (s : State) (x : Axis) (k : StopKind) : Frame s (s.stopAxis x k) :=
  (Frame.ofSetAxis s x _).trans (s.stopAxis_tells x k).frame

theorem State.stopAxis_halts (s : State) (x : Axis) (k : StopKind) :
    (s.axis x).HaltedTo (s.params x).setTime k ((s.stopAxis x k).axis x) :=
  .ofLegEnds (by simpa using (s.stopAxis_tells x k).axis)

theorem State.stopAxis_other (s : State) (x : Axis) (k : StopKind) :
    (s.stopAxis x k).axis (otherAxis x) = s.axis (otherAxis x) := by simpa using (s.stopAxis_tells x k).other

theorem State.stopAxis_marks (s : State) (x : Axis) (k : StopKind) : s.seq.MarksMoves (s.stopAxis x k).seq := by
  simpa using (s.stopAxis_tells x k).seq

theorem State.stopAxis_runEnds (s : State) (x : Axis) (k : StopKind) : s.mon.RunEnds (s.stopAxis x k).mon := by
  simpa using (s.stopAxis_tells x k).mon

/-! ## A stop of both axes, the end of the conversion and of the run -/

theorem State.stopBoth_frame (s : State) (k : StopKind) : Frame s (s.stopBoth k) :=
  (s.stopAxis_frame .rake k).trans (State.stopAxis_frame _ .slew k)

theorem State.stopBoth_halts (s : State) (k : StopKind) (x : Axis) :
    (s.axis x).HaltedTo (s.params x).setTime k ((s.stopBoth k).axis x) := by
  unfold State.stopBoth
  cases x
  · have h := (s.stopAxis .rake k).stopAxis_halts .slew k
    rw [(s.stopAxis_frame .rake k).params] at h
    have o : (s.stopAxis .rake k).axis .slew = s.axis .slew := s.stopAxis_other .rake k
    rwa [o] at h
  · have o : ((s.stopAxis .rake k).stopAxis .slew k).axis .rake = (s.stopAxis .rake k).axis .rake :=
      State.stopAxis_other _ .slew k
    rw [o]
    exact s.stopAxis_halts .rake k

theorem State.stopBoth_marks (s : State) (k : StopKind) : s.seq.MarksMoves (s.stopBoth k).seq :=
  (s.stopAxis_marks .rake k).trans (State.stopAxis_marks _ .slew k)

theorem State.stopBoth_runEnds (s : State) (k : StopKind) : s.mon.RunEnds (s.stopBoth k).mon :=
  (s.stopAxis_runEnds .rake k).trans (State.stopAxis_runEnds _ .slew k)

theorem State.requestStatus_frame (s : State) : Frame s s.requestStatus := by
  rw [State.requestStatus_eq]
  refine ⟨rfl, rfl, rfl, rfl, rfl, rfl, rfl, rfl, rfl, rfl, ?_, ?_, fun _ => rfl⟩ <;> rw [State.requestStatus_bus]

theorem State.giveOutcome_frame (s : State) (c t : Nat) (o : CmdOutcome) : Frame s (s.giveOutcome c t o) := by
  refine Frame.trans ?_ (State.requestStatus_frame _)
  exact ⟨rfl, rfl, rfl, rfl, rfl, rfl, rfl, rfl, rfl, rfl, rfl, rfl, fun _ => rfl⟩

theorem State.judgeZoneWait_frame (s : State) : Frame s s.judgeZoneWait := by
  unfold State.judgeZoneWait
  split
  · exact .refl s
  · exact ⟨rfl, rfl, rfl, rfl, rfl, rfl, rfl, rfl, rfl, rfl, rfl, rfl, fun _ => rfl⟩

theorem Frame.ofSeqDropScript (s : State) (q : Sequencer) :
    Frame s { s with seq := q, peers := dropScript s.peers } :=
  ⟨rfl, rfl, rfl, rfl, rfl, rfl, rfl, rfl, rfl, rfl, rfl, rfl, id⟩

/-- What the end of a conversion leaves as it was: the axes, the enable monitor and the fault unit (R124, R125, R137). -/
structure EndsConversion (s t : State) : Prop where
  frame : Frame s t
  slew : t.slew = s.slew
  rake : t.rake = s.rake
  mon : t.mon = s.mon
  seq : s.seq.endedFrom t.seq

theorem State.judgeZoneWait_eq (s : State) : s.judgeZoneWait = { s with zones := s.judgeZoneWait.zones } := by
  unfold State.judgeZoneWait; split <;> rfl

theorem State.seqToAborted_ends (s : State) (h : s.seq.state = .running ∨ s.seq.state = .paused) :
    EndsConversion s s.seqToAborted := by
  have f : Frame s s.seqToAborted :=
    ((Frame.ofSeqDropScript s _).trans (State.requestStatus_frame _)).trans (State.judgeZoneWait_frame _)
  refine ⟨f, ?_, ?_, ?_, ?_⟩ <;> unfold State.seqToAborted <;> rw [State.judgeZoneWait_eq, State.requestStatus_eq]
  rcases h with h | h <;> simp [Sequencer.endedFrom, h]

theorem State.seqToIdle_ends (s : State) (h : s.seq.state = .armed) : EndsConversion s s.seqToIdle := by
  have f : Frame s s.seqToIdle := (Frame.ofSeqDropScript s _).trans (State.requestStatus_frame _)
  refine ⟨f, ?_, ?_, ?_, ?_⟩ <;> unfold State.seqToIdle <;> rw [State.requestStatus_eq]
  simp [Sequencer.endedFrom, h]

theorem EndsConversion.giveOutcome {s t : State} (h : EndsConversion s t) (c n : Nat) (o : CmdOutcome) :
    EndsConversion s (t.giveOutcome c n o) := by
  refine ⟨h.frame.trans (t.giveOutcome_frame c n o), ?_, ?_, ?_, ?_⟩ <;> rw [State.giveOutcome_eq]
  · exact h.slew
  · exact h.rake
  · exact h.mon
  · exact h.seq

theorem State.endConversion_ends (s : State) (o : Option CmdOutcome) : EndsConversion s (s.endConversion o) := by
  have same (h : s.seq.state = .idle ∨ s.seq.state = .complete ∨ s.seq.state = .aborted) : EndsConversion s s :=
    ⟨.refl s, rfl, rfl, rfl, by rcases h with h | h | h <;> simp [Sequencer.endedFrom, h]⟩
  unfold State.endConversion
  split
  · next h => exact s.seqToAborted_ends (.inl h)
  · next h => exact s.seqToAborted_ends (.inr h)
  · next h =>
    split
    · exact (s.seqToIdle_ends h).giveOutcome _ _ _
    · exact s.seqToIdle_ends h
  · next h => exact same (.inl h)
  · next h => exact same (.inr (.inl h))
  · next h => exact same (.inr (.inr h))

/-- The outcome against the armed command (R125, R175). -/
theorem State.endConversion_outcome {s : State} {c n : Nat} (o : CmdOutcome) (h : s.seq.state = .armed)
    (k : s.seq.armed = some (c, n)) :
    (s.endConversion (some o)).bus.outcome = some { console := c, tag := n, outcome := o } := by
  unfold State.endConversion
  rw [h, k]
  exact State.giveOutcome_outcome _ _ _ _

/-- The end of the run leaves no run (R148, R150). -/
theorem State.endRun_mon (s : State) : s.endRun.mon = { s.mon with run := .none } := by
  unfold State.endRun
  split
  · next h => rw [← h]
  · rfl
  · simp

theorem State.endRun_frame (s : State) : Frame s s.endRun := by
  unfold State.endRun
  split
  · exact .refl s
  · exact .ofSeqMon s s.seq _
  · exact (Frame.ofSeqMon s s.seq _).trans (.ofSetAxis _ _ _)

theorem State.endRun_seq (s : State) : s.endRun.seq = s.seq := by
  unfold State.endRun; split <;> simp

theorem State.endRun_bus (s : State) : s.endRun.bus = s.bus := by
  unfold State.endRun; split <;> simp

theorem State.endRun_axis (s : State) (x : Axis) : (s.axis x).LegEnds (s.endRun.axis x) := by
  unfold State.endRun
  split
  · exact .refl _
  · cases x <;> exact .refl _
  · next y _ => cases x <;> cases y <;> first | exact .refl _ | exact .clear _

theorem Sequencer.endedFrom.ofMarks {q r u : Sequencer} (h : q.MarksMoves r) (k : r.endedFrom u) : q.endedFrom u := by
  have hs := h.state
  unfold Sequencer.endedFrom at k ⊢
  rw [hs] at k
  have same (c : q.converting = false) (e : u = r) : u = q := e.trans (h.2 c)
  rcases e : q.state <;> simp only [e] at k ⊢
  · exact same (by simp [Sequencer.converting, e]) k
  · exact k
  · rwa [h.1] at k
  · rwa [h.1] at k
  · exact same (by simp [Sequencer.converting, e]) k
  · exact same (by simp [Sequencer.converting, e]) k

theorem Sequencer.endedFrom.trans {q r u : Sequencer} (h : q.endedFrom r) (k : r.endedFrom u) : q.endedFrom u := by
  have atEnd (e : r.state = .idle ∨ r.state = .complete ∨ r.state = .aborted) : u = r := by
    rcases e with e | e | e <;> simpa only [Sequencer.endedFrom, e] using k
  unfold Sequencer.endedFrom at h ⊢
  rcases e : q.state <;> simp only [e] at h ⊢
  · rw [atEnd (.inl (by rw [h, e])), h]
  · rw [atEnd (.inl h.1)]; exact h
  · rw [atEnd (.inr (.inr h.1))]; exact h
  · rw [atEnd (.inr (.inr h.1))]; exact h
  · rw [atEnd (.inr (.inl (by rw [h, e]))), h]
  · rw [atEnd (.inr (.inr (by rw [h, e]))), h]

/-- What the reactions to a stop cause of kind `k` do (R163, R169, R175): both axes halted, the conversion and the run ended. -/
structure Reacts (k : StopKind) (s t : State) : Prop where
  frame : Frame s t
  axis : ∀ x, (s.axis x).HaltedTo (s.params x).setTime k (t.axis x)
  seq : s.seq.endedFrom t.seq
  mon : t.mon = { s.mon with run := .none }

theorem State.reactions_react (s : State) (k : StopKind) (o : Option CmdOutcome) :
    Reacts k s (((s.stopBoth k).endConversion o).endRun) := by
  have e := (s.stopBoth k).endConversion_ends o
  refine ⟨((s.stopBoth_frame k).trans e.frame).trans (State.endRun_frame _), fun x => ?_, ?_, ?_⟩
  · have same : ((s.stopBoth k).endConversion o).axis x = (s.stopBoth k).axis x := by
      cases x
      · exact e.slew
      · exact e.rake
    exact (s.stopBoth_halts k x).legEnds (same ▸ State.endRun_axis _ x)
  · rw [State.endRun_seq]; exact .ofMarks (s.stopBoth_marks k) e.seq
  · rw [State.endRun_mon, e.mon]; exact (s.stopBoth_runEnds k).ended

theorem Reacts.trans {k : StopKind} {s t u : State} (h : Reacts k s t) (e : Reacts k t u) : Reacts k s u := by
  refine ⟨h.frame.trans e.frame, fun x => (h.axis x).trans ?_, h.seq.trans e.seq, by rw [e.mon, h.mon]⟩
  have := e.axis x
  rwa [h.frame.params] at this

/-- Reactions of a state that differs from `s` in the fault unit and the bus alone. -/
theorem Reacts.ofAlike {k : StopKind} {s s' t : State} (h : Reacts k s' t) (f : Frame s s')
    (slew : s'.slew = s.slew) (rake : s'.rake = s.rake) (seq : s'.seq = s.seq) (mon : s'.mon = s.mon) : Reacts k s t := by
  refine ⟨f.trans h.frame, fun x => ?_, seq ▸ h.seq, mon ▸ h.mon⟩
  have a := h.axis x
  rw [f.params] at a
  cases x
  · rwa [State.axis_slew, slew] at a
  · rwa [State.axis_rake, rake] at a

theorem Reacts.stopsOnly {k : StopKind} {s t : State} (h : Reacts k s t) : s.stopsOnly t :=
  ⟨h.frame.pending, h.frame.inReset, h.frame.nv, h.frame.comm, h.frame.store, h.frame.tickLeft, h.frame.env,
    h.frame.rows, h.frame.chainOpen, h.frame.fresh, (h.axis .slew).sensesSame, (h.axis .rake).sensesSame⟩

/-! ## A report -/

/-- Latching changes the fault unit and the bus's queue alone (R167). -/
theorem State.latch_alike (s : State) (k : FaultKind) (f : FaultFields) :
    Frame s (s.latch k f) ∧ (s.latch k f).slew = s.slew ∧ (s.latch k f).rake = s.rake ∧ (s.latch k f).seq = s.seq ∧
      (s.latch k f).mon = s.mon := by
  unfold State.latch
  split
  · exact ⟨(Frame.ofFault s _).trans (State.requestStatus_frame _), rfl, rfl, rfl, rfl⟩
  · split
    · exact ⟨.refl s, rfl, rfl, rfl, rfl⟩
    · exact ⟨(Frame.ofFault s _).trans (State.requestStatus_frame _), rfl, rfl, rfl, rfl⟩

theorem State.clearSent_alike (s : State) (k : FaultKind) :
    Frame s (s.clearSent k) ∧ (s.clearSent k).slew = s.slew ∧ (s.clearSent k).rake = s.rake ∧
      (s.clearSent k).seq = s.seq ∧ (s.clearSent k).mon = s.mon := by
  unfold State.clearSent
  split
  · exact ⟨.ofFault s _, rfl, rfl, rfl, rfl⟩
  · exact ⟨.refl s, rfl, rfl, rfl, rfl⟩

theorem State.lineReactions_react (s : State) : Reacts .quick s s.lineReactions := s.reactions_react .quick _

/-- What a report does beside the fault unit and the bus: both axes halted quickly, the conversion and the run ended (R169). -/
theorem State.report_reacts (s : State) (k : FaultKind) (f : FaultFields) (hk : k ≠ .duplicateStation) :
    Reacts .quick s (s.report k f) := by
  obtain ⟨lf, ls, lr, lq, lm⟩ := s.latch_alike k f
  obtain ⟨cf, cs, cr, cq, cm⟩ := (s.latch k f).clearSent_alike k
  have r : Reacts .quick ((s.latch k f).clearSent k) (((s.latch k f).clearSent k).faultReactions k) := by
    unfold State.faultReactions
    simp only [hk, if_false]
    exact State.reactions_react _ .quick _
  have r' := ((r.ofAlike cf cs cr cq cm).ofAlike lf ls lr lq lm)
  unfold State.report State.senseOwn
  split
  · exact r'.trans (State.lineReactions_react _)
  · exact r'

/-- A report to an empty record fills it (R167, R168). -/
theorem State.report_record (s : State) (k : FaultKind) (f : FaultFields) (h : s.fault.record = none) :
    (s.report k f).fault.record =
      some { kind := k, fields := f, place := s.faultPlace, slewE := s.slew.e, rakeE := s.rake.e } := by
  have l : (s.latch k f).fault.record =
      some { kind := k, fields := f, place := s.faultPlace, slewE := s.slew.e, rakeE := s.rake.e } := by
    unfold State.latch
    simp only [h]
    rw [State.requestStatus_fault]
    rfl
  rw [State.report_fault]
  unfold State.clearSent
  split <;> exact l

end Sys2Proof.Machine
end

-- ==== Proofs: counting, slips and reference marks ====
section
/-! SUPPORT. Chapter 1's counting and reference marks (R1 to R7, R13). -/

namespace Sys2Proof.Machine

/-! ## The decoder (R1, R2) -/

theorem decodePair_positive {a b a' b' : Bool} (h : (a', b') = nextPositive a b) : decodePair a b a' b' = .count .pos := by
  revert a b a' b'; decide

theorem decodePair_negative {a b a' b' : Bool} (h : (a, b) = nextPositive a' b') : decodePair a b a' b' = .count .neg := by
  revert a b a' b'; decide

theorem decodePair_both (a b : Bool) : decodePair a b (!a) (!b) = .quadratureError := by
  revert a b; decide

theorem exec_encoderTransition {s : State} (h : s.inReset = false) (x : Axis) (a b : Bool) :
    exec (.encoderTransition x a b) s = .next (s.transition x a b) := live_of_not_inReset (·.transition x a b) h

/-- R1: a count inside the position range. -/
theorem State.transition_count {s : State} {x : Axis} {a b : Bool} {d : Dir}
    (h : decodePair (s.axis x).chA (s.axis x).chB a b = .count d)
    (lo : posMin ≤ (s.axis x).e + dirSign d) (hi : (s.axis x).e + dirSign d ≤ posMax) :
    s.transition x a b =
      s.setAxis x { s.axis x with e := (s.axis x).e + dirSign d, lastDir := some d, chA := a, chB := b } := by
  unfold State.transition
  simp only [h]
  rw [if_neg (by omega)]

/-- R2: a change of both channels. -/
theorem State.transition_error {s : State} {x : Axis} {a b : Bool}
    (h : decodePair (s.axis x).chA (s.axis x).chB a b = .quadratureError) :
    s.transition x a b = (s.setAxis x { s.axis x with chA := a, chB := b }).encoderSlip x := by
  unfold State.transition
  simp only [h]

/-- R3: a count past an end of the position range. -/
theorem State.transition_saturates {s : State} {x : Axis} {a b : Bool} {d : Dir}
    (h : decodePair (s.axis x).chA (s.axis x).chB a b = .count d)
    (out : (s.axis x).e + dirSign d < posMin ∨ posMax < (s.axis x).e + dirSign d) :
    s.transition x a b = (s.setAxis x { s.axis x with chA := a, chB := b, lastDir := some d }).encoderSlip x := by
  unfold State.transition
  simp only [h]
  rw [if_pos out]

/-- Settles O13: each column of the table is a count of its direction, which stays in the range. -/
theorem encoderCounts : Obligations.EncoderCounts := by
  intro s x a b hs
  refine ⟨fun hp hlo hhi => ?_, fun hn hlo hhi => ?_⟩ <;> rw [exec_encoderTransition hs]
  · rw [State.transition_count (decodePair_positive hp) (by simp only [dirSign]; omega) (by simp only [dirSign]; omega)]
    rfl
  · rw [State.transition_count (decodePair_negative hn) (by simp only [dirSign]; omega) (by simp only [dirSign]; omega)]
    rfl

/-! ## Slips (R2, R3, R7) -/

/-- R8: what a change of the reference state leaves: the flag of its axis, and the bus's queue. -/
theorem State.setReferenced_eq (s : State) (x : Axis) (r : Bool) :
    s.setReferenced x r =
      { s.setAxis x { s.axis x with referenced := r } with bus := (s.setReferenced x r).bus } := by
  unfold State.setReferenced
  split
  · next h => subst h; cases x <;> rfl
  · cases x <;> rfl

theorem State.setReferenced_frame (s : State) (x : Axis) (r : Bool) : Frame s (s.setReferenced x r) := by
  unfold State.setReferenced
  split
  · exact .refl s
  · exact (Frame.ofSetAxis s x _).trans (State.requestStatus_frame _)

theorem State.setReferenced_axis (s : State) (x : Axis) (r : Bool) :
    (s.setReferenced x r).axis x = { s.axis x with referenced := r } := by
  rw [State.setReferenced_eq]; cases x <;> rfl

theorem State.setReferenced_other (s : State) (x : Axis) (r : Bool) :
    (s.setReferenced x r).axis (otherAxis x) = s.axis (otherAxis x) := by
  rw [State.setReferenced_eq]; cases x <;> rfl

theorem State.setReferenced_fault (s : State) (x : Axis) (r : Bool) : (s.setReferenced x r).fault = s.fault := by
  rw [State.setReferenced_eq]; cases x <;> rfl

/-- What a slip leaves: the axis UNREFERENCED, ENCODER_SLIP reported with it, and its senses and those of the other axis as they
were (R2, R7). -/
structure Slipped (x : Axis) (s t : State) : Prop where
  frame : Frame s t
  axis : ({ s.axis x with referenced := false } : AxisUnit).sensesSame (t.axis x)
  other : (s.axis (otherAxis x)).sensesSame (t.axis (otherAxis x))
  held : FaultKind.encoderSlip ∈ t.fault.held
  record : s.fault.record = none → ∃ r, t.fault.record = some r ∧ r.kind = .encoderSlip ∧
    r.fields = { axis := some x, zone := none, peer := none } ∧ r.slewE = s.slew.e ∧ r.rakeE = s.rake.e

theorem State.encoderSlip_slipped (s : State) (x : Axis) : Slipped x s (s.encoderSlip x) := by
  have r := (s.setReferenced x false).report_reacts .encoderSlip (FaultFields.ofAxis x) (by decide)
  have own := (r.axis x).sensesSame
  have other := (r.axis (otherAxis x)).sensesSame
  rw [State.setReferenced_axis] at own
  rw [State.setReferenced_other] at other
  refine ⟨(s.setReferenced_frame x false).trans r.frame, own, other, State.report_held _ _ _, fun h => ?_⟩
  refine ⟨_, State.report_record _ _ _ (by rw [State.setReferenced_fault]; exact h), rfl, rfl, ?_, ?_⟩ <;>
    rw [State.setReferenced_eq] <;> cases x <;> rfl

/-- Settles O14: a quadrature error and a count past an end are slips of an axis that took the new levels. -/
theorem encoderSlips : Obligations.EncoderSlips := by
  intro s x a b hs u slipped
  have main (d : Option Dir) (h : s.transition x a b =
      (s.setAxis x { u with chA := a, chB := b, lastDir := d }).encoderSlip x) :
      ∃ t, exec (.encoderTransition x a b) s = .next t ∧ slipped t d := by
    refine ⟨_, exec_encoderTransition hs x a b, ?_⟩
    rw [h]
    obtain ⟨f, ax, ot, held, rec_⟩ := State.encoderSlip_slipped (s.setAxis x { u with chA := a, chB := b, lastDir := d }) x
    rw [State.setAxis_axis] at ax
    rw [State.setAxis_axis_other] at ot
    obtain ⟨he, hA, hB, hd, hr, -⟩ := ax
    refine ⟨he, hd, hA, hB, hr, held, fun n => ?_, ot, ?_, ?_, ?_, ?_, ?_⟩
    · obtain ⟨r, hr, hk, hf, hse, hre⟩ := rec_ (by simpa using n)
      refine ⟨r, hr, hk, hf, ?_, ?_⟩
      · rw [hse]; cases x <;> rfl
      · rw [hre]; cases x <;> rfl
    · simpa using f.nv
    · simpa using f.comm
    · simpa using f.store
    · simpa using f.env
    · simpa using f.rows
  refine ⟨fun ha hb => main _ ?_, fun hp he => main _ ?_, fun hn he => main _ ?_⟩
  · subst ha hb
    exact State.transition_error (decodePair_both _ _)
  · exact State.transition_saturates (decodePair_positive hp) (.inr (by show posMax < u.e + 1; omega))
  · exact State.transition_saturates (decodePair_negative hn) (.inl (by show u.e + -1 < posMin; omega))

/-! ## Reference marks (R4 to R7, R13) -/

/-- The row that brings a mark of an axis. -/
def markRow : Axis → Instr
  | .slew => .slewIndexMark
  | .rake => .rakeSwitchClose

/-- The state in which a mark's row takes the mark: the rake's switch has closed. -/
def State.atMark (s : State) : Axis → State
  | .slew => s
  | .rake => { s with rake := { s.rake with refSwitch := true } }

/-- R4, R5: a slew index, and the rake switch closing while moving down, are marks. -/
theorem exec_markRow {s : State} {x : Axis} (hs : s.inReset = false)
    (h : x = .rake → s.rake.refSwitch = false ∧ s.rake.lastDir = some .neg) :
    exec (markRow x) s = .next ((s.atMark x).takeMark x) := by
  cases x
  · exact live_of_not_inReset (·.takeMark .slew) hs
  · obtain ⟨hc, hd⟩ := h rfl
    refine (live_of_not_inReset State.switchCloses hs).trans (congrArg _ ?_)
    simp [State.switchCloses, hc, hd, State.atMark]

theorem State.atMark_axis (s : State) (x : Axis) :
    (s.atMark x).axis x = { s.axis x with refSwitch := ((s.atMark x).axis x).refSwitch } := by cases x <;> rfl

theorem State.atMark_frame (s : State) (x : Axis) : Frame s (s.atMark x) := by
  cases x <;> exact ⟨rfl, rfl, rfl, rfl, rfl, rfl, rfl, rfl, rfl, rfl, rfl, rfl, fun _ => rfl⟩

/-- R6: the capture record counts its marks from 0 when it was empty. -/
theorem AxisUnit.captureOf_eq (a : AxisUnit) (mark : Int) (tol : Nat) :
    a.captureOf mark tol =
      { captured := a.e, deviation := a.e - mark, marks := ((a.capture.map (·.marks)).getD 0 + 1) % 256
        use := a.markUse (a.e - mark) tol } := by
  unfold AxisUnit.captureOf
  rcases h : a.capture <;> simp

/-- The capture record of a mark under a record in force (R6). -/
def State.markCapture (s : State) (r : Record) (x : Axis) : Capture :=
  (s.axis x).captureOf (r.axis x).mark (r.axis x).slip

/-- With a record in force a mark is captured, and then its use says what follows (R6, R7, R13). -/
theorem State.takeMark_eq {s : State} {r : Record} (x : Axis) (h : s.comm.record = some r) :
    s.takeMark x =
      let s1 := s.setAxis x { s.axis x with capture := some (s.markCapture r x) }
      match (s.markCapture r x).use with
      | .preset => ((s1.setAxis x ((s1.axis x).preset (r.axis x).mark)).setReferenced x true).stopAxis x .controlled
      | .slip => s1.encoderSlip x
      | .within => s1
      | .unchecked => s1 := by
  unfold State.takeMark State.markPosition State.slipTolerance State.markCapture
  simp only [h, Option.isNone_some, Bool.false_eq_true, if_false]
  cases x <;> rfl

/-- Settles O15: outside a search before its preset the use of a mark is UNCHECKED, WITHIN or SLIP. -/
theorem markJudged : Obligations.MarkJudged := by
  intro s x r hs hr hl hx row s1 off capture
  have hrow : exec row s = .next (s1.takeMark x) := by
    have := exec_markRow hs hx
    cases x <;> exact this
  have hr1 : s1.comm.record = some r := by cases x <;> exact hr
  have hcap (use : MarkUse) (hu : (s.axis x).markUse off (r.axis x).slip = use) :
      s1.markCapture r x = capture use := by
    subst hu
    rw [State.markCapture, AxisUnit.captureOf_eq]
    cases x <;> rfl
  rw [hrow, State.takeMark_eq x hr1]
  refine ⟨fun h => ?_, fun h hle => ?_, fun h hlt => ?_⟩
  · rw [hcap .unchecked (by simp [AxisUnit.markUse, hl, h])]
  · rw [hcap .within (by simp [AxisUnit.markUse, hl, h, Nat.not_lt.mpr hle])]
  · rw [hcap .slip (by simp [AxisUnit.markUse, hl, h, hlt])]
    obtain ⟨f, ax, -, held, rec_⟩ :=
      State.encoderSlip_slipped (s1.setAxis x { s1.axis x with capture := some (capture .slip) }) x
    rw [State.setAxis_axis] at ax
    obtain ⟨he, -, -, -, href, hc, -⟩ := ax
    refine ⟨_, rfl, hc, he.trans ?_, href, held, fun n => ?_, f.nv.trans ?_, f.comm.trans ?_, f.env.trans ?_⟩
    · cases x <;> rfl
    · obtain ⟨q, hq, hk, hf, -⟩ := rec_ (by cases x <;> exact n)
      exact ⟨q, hq, hk, hf⟩
    all_goals cases x <;> rfl

/-- R13, R31: the stop that the position unit orders at the preset is not reported back to it. -/
theorem State.stopAxis_atPreset {s : State} {x : Axis} (k : StopKind) (hs : (s.axis x).state = .tracking false)
    (hq : (s.axis x).requester = some .positionUnit) (hl : (s.axis x).leg = some .stopping) :
    s.stopAxis x k =
      s.setAxis x { (s.axis x).enter (.stopping k) none with mode := none, requester := none } := by
  unfold State.stopAxis
  simp only [hs, hq, State.tellStopped, State.setAxis_axis, AxisUnit.enter_leg, hl, if_true]

theorem State.setReferenced_pending {s : State} {x : Axis} {r : Bool} (h : (s.axis x).referenced ≠ r) :
    (s.setReferenced x r).bus.statusPending = true := by
  unfold State.setReferenced
  rw [if_neg h]
  exact State.requestStatus_pending _

/-- R13, whole: E at the mark, P moved with it, REFERENCED, and STOPPING under the position unit's own stop. -/
theorem State.preset_eq {s : State} {x : Axis} (mark : Int) (hs : (s.axis x).state = .tracking false)
    (hq : (s.axis x).requester = some .positionUnit) :
    ((s.setAxis x ((s.axis x).preset mark)).setReferenced x true).stopAxis x .controlled =
      { s.setAxis x { (s.axis x).preset mark with
          referenced := true, state := .stopping .controlled, timer := none, driveEnable := true, brakeRelease := true
          mode := none, requester := none } with
        bus := ((s.setAxis x ((s.axis x).preset mark)).setReferenced x true).bus } := by
  have e := (s.setAxis x ((s.axis x).preset mark)).setReferenced_axis x true
  rw [State.setAxis_axis] at e
  rw [State.stopAxis_atPreset _ (by rw [e]; exact hs) (by rw [e]; exact hq) (by rw [e]; rfl), e,
    State.setReferenced_eq]
  cases x <;> rfl

/-- Settles O16: the mark's use is PRESET, and the stop it orders leaves the search in its STOPPING leg. -/
theorem markPresets : Obligations.MarkPresets := by
  intro s x r l hs hr hl hne hst hq hx row
  have hrow : exec row s = .next ((s.atMark x).takeMark x) := by
    have := exec_markRow hs hx
    cases x <;> exact this
  have huse : ((s.atMark x).markCapture r x).use = .preset := by
    rw [State.markCapture, AxisUnit.captureOf_eq, s.atMark_axis]
    cases l <;> simp [AxisUnit.markUse, hl, Leg.beforePreset] at hne ⊢
  have hcap : ((s.atMark x).markCapture r x).captured = (s.axis x).e := by
    rw [State.markCapture, AxisUnit.captureOf_eq, s.atMark_axis]
  rw [hrow, State.takeMark_eq x (by rw [(s.atMark_frame x).comm]; exact hr), huse]
  generalize (s.atMark x).markCapture r x = c at huse hcap
  refine ⟨_, rfl, ?_⟩
  simp only
  have hpend (h : (s.axis x).referenced = false) (a : AxisUnit) (ha : a.referenced = (s.axis x).referenced) :
      (((s.atMark x).setAxis x a).setReferenced x true).bus.statusPending = true :=
    State.setReferenced_pending (by rw [State.setAxis_axis, ha, h]; decide)
  rw [State.preset_eq _ (by rw [State.setAxis_axis]; show ((s.atMark x).axis x).state = _; rw [s.atMark_axis]; exact hst)
    (by rw [State.setAxis_axis]; show ((s.atMark x).axis x).requester = _; rw [s.atMark_axis]; exact hq)]
  simp only [State.setAxis_axis, State.setAxis_setAxis]
  cases x
  all_goals exact ⟨rfl, rfl, rfl, rfl, rfl, rfl, rfl, rfl, rfl, congrArg some huse, congrArg some hcap, rfl, rfl, rfl, rfl,
    fun h => hpend h _ rfl⟩

end Sys2Proof.Machine
end

-- ==== Proofs: motion requests ====
section
/-! SUPPORT. The end limit lock and what a motion request does in each axis state (R11, R21 to R23, R40, R43, R45, R47, R49). -/

namespace Sys2Proof.Machine

/-! ## The lock (R11) -/

theorem dirOf_eq_some_iff (n : Int) (d : Dir) : dirOf n = some d ↔ n.sign = dirSign d := by
  unfold dirOf
  rcases Int.lt_trichotomy n 0 with h | h | h
  · rw [Int.sign_eq_neg_one_of_neg h, if_neg (by omega), if_pos h]; cases d <;> simp [dirSign]
  · subst h; cases d <;> simp [dirSign]
  · rw [Int.sign_eq_one_of_pos h, if_neg (by omega), if_neg (by omega)]; cases d <;> simp [dirSign]

/-- R11: the lock refuses with both limits ACTIVE, but for the reversal's brake, and toward an ACTIVE limit. -/
theorem AxisUnit.lockRefuses_iff (a : AxisUnit) (g : Goal) :
    a.lockRefuses g = true ↔
      (a.negLimit = true ∧ a.posLimit = true ∧ g ≠ .brake .quick) ∨ ∃ d, g.dir a.p = some d ∧ a.limit d = true := by
  have aimed (o : Option Dir) : (o.map a.limit).getD false = true ↔ ∃ d, o = some d ∧ a.limit d = true := by
    cases o <;> simp
  match g with
  | .brake .quick => simp [AxisUnit.lockRefuses, Goal.dir]
  | .brake .normal => simp [AxisUnit.lockRefuses, Goal.dir]
  | .position t v => simp only [AxisUnit.lockRefuses, Bool.or_eq_true, Bool.and_eq_true, aimed]; simp
  | .velocity d v => simp only [AxisUnit.lockRefuses, Bool.or_eq_true, Bool.and_eq_true, aimed]; simp

/-- With no limit ACTIVE the lock refuses nothing. -/
theorem AxisUnit.lockRefuses_free {a : AxisUnit} (n : a.negLimit = false) (p : a.posLimit = false) (g : Goal) :
    a.lockRefuses g = false := by
  rw [Bool.eq_false_iff, Ne, AxisUnit.lockRefuses_iff]
  rintro (⟨h, -⟩ | ⟨d, -, h⟩)
  · rw [n] at h; cases h
  · cases d
    · exact Bool.noConfusion (n.symm.trans h)
    · exact Bool.noConfusion (p.symm.trans h)

/-! ## A request, clamped and judged (R22, R23) -/

/-- The state with TARGET_LIMITED raised where a request's target lies outside the soft limits (R23). -/
def State.noticed (s : State) (x : Axis) (g : Goal) : State :=
  if targetLimited (s.params x) (s.axis x).referenced g then s.raiseNotice .targetLimited else s

/-- A request with its speed and target clamped (R22, R23). -/
def State.clamped (s : State) (x : Axis) (r : Request) : Request :=
  { goal := clampGoal (s.params x) (s.axis x).referenced r.goal, asker := r.asker }

theorem State.noticed_axis (s : State) (x y : Axis) (g : Goal) : (s.noticed x g).axis y = s.axis y := by
  unfold State.noticed; split <;> cases y <;> rfl

theorem State.noticed_eq (s : State) (x : Axis) (g : Goal) :
    s.noticed x g = { s with fault := { s.fault with notice := (s.noticed x g).fault.notice } } := by
  unfold State.noticed; split <;> rfl

theorem State.request_eq (s : State) (x : Axis) (r : Request) :
    s.request x r =
      if (s.axis x).lockRefuses (s.clamped x r).goal then (s.noticed x r.goal).refuseRequest x r.asker
      else (s.noticed x r.goal).placeRequest x (s.clamped x r) := by
  have h : s.request x r =
      if ((s.noticed x r.goal).axis x).lockRefuses (s.clamped x r).goal then (s.noticed x r.goal).refuseRequest x r.asker
      else (s.noticed x r.goal).placeRequest x (s.clamped x r) := rfl
  rw [h, s.noticed_axis]

theorem State.noticed_velocity (s : State) (x : Axis) (d : Dir) (v : Nat) : s.noticed x (.velocity d v) = s := by
  simp [State.noticed, targetLimited]

theorem State.noticed_brake (s : State) (x : Axis) (k : BrakeRate) : s.noticed x (.brake k) = s := by
  simp [State.noticed, targetLimited]

/-! ## A request placed -/

theorem State.placeRequest_restart {s : State} {x : Axis} (r : Request) (h : (s.axis x).state = .off)
    (p : s.comm.restartPending = true) : s.placeRequest x r = s := by
  simp [State.placeRequest, h, p]

theorem State.placeRequest_off {s : State} {x : Axis} (r : Request) (h : (s.axis x).state = .off)
    (p : s.comm.restartPending = false) (n : (s.axis x).ready = false) :
    s.placeRequest x r = s.setAxis x { s.axis x with
      p := (s.axis x).e, f := 0, pending := some r, state := .starting .awaitReady, timer := some 500
      driveEnable := true, brakeRelease := false } := by
  simp [State.placeRequest, h, p, State.startUp, n, AxisUnit.enter, AxisState.enables, AxisState.releases]

theorem State.placeRequest_waits {s : State} {x : Axis} (r : Request)
    (h : (∃ l, (s.axis x).state = .starting l) ∨ (∃ k, (s.axis x).state = .stopping k) ∨ (s.axis x).state = .settling) :
    s.placeRequest x r = s.setAxis x { s.axis x with pending := some r } := by
  rcases h with ⟨l, h⟩ | ⟨k, h⟩ | h <;> simp [State.placeRequest, h]

theorem State.placeRequest_tracking {s : State} {x : Axis} (r : Request) (h : ∃ b, (s.axis x).state = .tracking b) :
    s.placeRequest x r = s.setAxis x ((s.axis x).takeGoal r) := by
  obtain ⟨b, h⟩ := h
  simp [State.placeRequest, h]

theorem State.placeRequest_faulted {s : State} {x : Axis} (r : Request) (h : (s.axis x).state = .faulted) :
    s.placeRequest x r = s.tellStopped x (some r.asker) := by
  simp [State.placeRequest, h]

/-- A motion-stopped report to the enable monitor ends the jog of the axis, and nothing else (R148). -/
theorem State.tellStopped_enableMonitor (s : State) (x : Axis) :
    ∃ m, s.tellStopped x (some .enableMonitor) = { s with mon := m } ∧
      ∀ d k, s.mon.run = .jog x d k → m.run = .none := by
  unfold State.tellStopped
  simp only
  split
  · next y d k h =>
    split
    · exact ⟨_, rfl, fun _ _ _ => rfl⟩
    · next hne => exact ⟨s.mon, rfl, fun d' k' e => absurd (by simp_all) hne⟩
  · next h => exact ⟨s.mon, rfl, fun d k e => absurd e (h x d k)⟩

/-- Settles O26: clamped, judged by the lock, then placed as the axis's state gives. -/
theorem requestTaken : Obligations.RequestTaken := by
  intro s x r a par speed target r' s1 toward refused
  have hr' : s.clamped x r = r' := by
    obtain ⟨g, q⟩ := r
    cases g <;> rfl
  have hs1 : s.noticed x r.goal = s1 := by
    obtain ⟨g, q⟩ := r
    cases g with
    | velocity d v => exact s.noticed_velocity x d v
    | brake k => exact s.noticed_brake x k
    | position t v =>
      show (if (a.referenced && decide (clampInt par.softLo par.softHi t ≠ t)) = true then _ else _) =
        if target t = t then _ else _
      simp only [target, clampInt]
      by_cases h : a.referenced = true
      · by_cases e : max par.softLo (min par.softHi t) = t <;> simp [h, e, State.raiseNotice]
      · simp [h]
  have hrefused : a.lockRefuses r'.goal = true ↔ refused := by
    rw [AxisUnit.lockRefuses_iff]
    have hb : r'.goal ≠ .brake .quick ↔ r.goal ≠ .brake .quick := by
      obtain ⟨g, q⟩ := r
      cases g <;> simp [r']
    have ht (d : Dir) : r'.goal.dir a.p = some d ↔ toward d := by
      obtain ⟨g, q⟩ := r
      cases g with
      | velocity e v => simp [r', toward, Goal.dir]
      | brake k => simp [r', toward, Goal.dir]
      | position t v => exact dirOf_eq_some_iff _ d
    simp only [refused, hb, ht]
  have ha : s1.axis x = a := by rw [← hs1, State.noticed_axis]
  have hc : s1.comm = s.comm := by rw [← hs1, State.noticed_eq]
  have hm : s1.mon = s.mon := by rw [← hs1, State.noticed_eq]
  have hq : s1.seq = s.seq := by rw [← hs1, State.noticed_eq]
  have hf : s1.fault.record = s.fault.record := by rw [← hs1, State.noticed_eq]
  have heq := s.request_eq x r
  rw [hr', hs1] at heq
  constructor
  · intro hn
    rw [if_neg (mt hrefused.mp hn)] at heq
    rw [heq, ← ha]
    refine ⟨fun h p => ?_, fun h n p => ?_, fun h => ?_, fun h => ?_, fun h q => ?_⟩
    · exact State.placeRequest_restart r' h (by rw [hc]; exact p)
    · exact State.placeRequest_off r' h (by rw [hc]; exact p) n
    · exact State.placeRequest_waits r' h
    · exact State.placeRequest_tracking r' h
    · rw [State.placeRequest_faulted r' h, ← hm, show r'.asker = .enableMonitor from q]
      exact s1.tellStopped_enableMonitor x
  · intro hy
    rw [if_pos (hrefused.mpr hy)] at heq
    rw [heq]
    refine ⟨fun q => ?_, fun q => ?_⟩
    · rw [q, ← hm]
      exact s1.tellStopped_enableMonitor x
    · rw [q]
      have rep := s1.report_reacts .limit (FaultFields.ofAxis x) (by decide)
      refine ⟨State.report_held _ _ _, ?_, ?_, fun n => ?_⟩
      · have h := (rep.axis x).stoppedBy
        rwa [ha] at h
      · rw [← hq]; exact rep.seq
      · exact ⟨_, State.report_record _ _ _ (hf.trans n), rfl, rfl⟩

end Sys2Proof.Machine
end

-- ==== Proofs: switch edges, end limits, drive and chain faults ====
section
/-! SUPPORT. The rake switch (R5, R15), the end limits in and out of a search (R9, R10, R14, R16), drive loss and the local stop
chain (R41, R50, R51). -/

namespace Sys2Proof.Machine

/-! ## Requests of the position unit in TRACKING -/

/-- A brake that the lock lets pass is taken at once in TRACKING (R15, R21, R45). -/
theorem State.request_brake_tracking {s : State} {x : Axis} {k : BrakeRate} {q : Requester}
    (h : (s.axis x).state = .tracking false) (l : (s.axis x).lockRefuses (.brake k) = false) :
    s.request x { goal := .brake k, asker := q } = s.setAxis x { s.axis x with
      mode := some (.brake k), requester := some q, state := .tracking false, timer := none, driveEnable := true
      brakeRelease := true, pending := none } := by
  rw [State.request_eq, State.noticed_brake]
  simp only [State.clamped, clampGoal, l]
  exact State.placeRequest_tracking _ ⟨false, h⟩

/-- A motion-stopped report to the position unit ends the search with its run, but in the STOPPING leg (R17, R148). -/
theorem State.tellStopped_positionUnit {s : State} {x : Axis} (h : (s.axis x).leg ≠ some .stopping) :
    s.tellStopped x (some .positionUnit) =
      { s.setAxis x { s.axis x with leg := none } with
        mon := { s.mon with run := if s.mon.run = .home x then .none else s.mon.run } } := by
  simp only [State.tellStopped, if_neg h]
  split
  · next e => rw [State.setAxis_mon] at e ⊢; rw [if_pos e]
  · next e => rw [State.setAxis_mon] at e; rw [if_neg e]; cases x <;> rfl

/-! ## The rake switch (R5, R15) -/

theorem exec_rakeSwitchClose {s : State} (h : s.inReset = false) : exec .rakeSwitchClose s = .next s.switchCloses :=
  live_of_not_inReset State.switchCloses h

theorem exec_rakeSwitchOpen {s : State} (h : s.inReset = false) : exec .rakeSwitchOpen s = .next s.switchOpens :=
  live_of_not_inReset State.switchOpens h

theorem State.switchCloses_notDown {s : State} (h : s.rake.lastDir ≠ some .neg) :
    s.switchCloses = { s with rake := { s.rake with refSwitch := true } } := by
  unfold State.switchCloses
  split
  · next c => rw [← c]
  · simp only

theorem State.switchOpens_aside {s : State} (h : ¬ (s.rake.lastDir = some .pos ∧ s.rake.leg = some .returning)) :
    s.switchOpens = { s with rake := { s.rake with refSwitch := false } } := by
  unfold State.switchOpens
  split
  · simp only
  · next c => rw [← Bool.eq_false_iff.mpr c]

/-- R15: the search turns, and the position unit asks for a brake at A. -/
theorem State.switchOpens_returning {s : State} (c : s.rake.refSwitch = true) (d : s.rake.lastDir = some .pos)
    (l : s.rake.leg = some .returning) :
    s.switchOpens = ({ s with rake := { s.rake with refSwitch := false, leg := some .turning } } : State).request .rake
      { goal := .brake .normal, asker := .positionUnit } := by
  simp [State.switchOpens, c, d, l]

/-- Settles O17: only an opening in an upward RETURN does more than change the input, and there the lock decides. -/
theorem rakeSwitchEdges : Obligations.RakeSwitchEdges := by
  intro s hs
  rw [exec_rakeSwitchClose hs, exec_rakeSwitchOpen hs]
  refine ⟨fun h => ?_, fun h => ?_, fun c d l n p => ?_, fun c d l t free => ?_⟩
  · rw [State.switchCloses_notDown h]
  · rw [State.switchOpens_aside h]
  · rw [State.switchOpens_returning c d l, State.request_eq, if_pos (by simp [AxisUnit.lockRefuses, State.clamped, clampGoal, n, p]),
      State.noticed_brake, State.refuseRequest, State.tellStopped_positionUnit (by simp)]
    rfl
  · rw [State.switchOpens_returning c d l, State.request_brake_tracking (by exact t)]
    · rfl
    · rcases free with e | e <;> simp [AxisUnit.lockRefuses, e]

/-! ## End limits (R9, R10, R14, R16) -/

theorem exec_endLimitActive {s : State} (h : s.inReset = false) (x : Axis) (d : Dir) :
    exec (.endLimitActive x d) s = .next (s.limitActive x d) := live_of_not_inReset (·.limitActive x d) h

theorem AxisUnit.movesToward_iff (a : AxisUnit) (d : Dir) : a.movesToward d = true ↔ a.tickV.sign = dirSign d := by
  simp [AxisUnit.movesToward, dirOf_eq_some_iff]

theorem AxisUnit.setLimit_eq (a : AxisUnit) (d : Dir) (b : Bool) :
    a.setLimit d b = { a with
      negLimit := (a.setLimit d b).negLimit, posLimit := (a.setLimit d b).posLimit } := by cases d <;> rfl

theorem AxisUnit.setLimit_self (a : AxisUnit) (d : Dir) : a.setLimit d (a.limit d) = a := by cases d <;> rfl

/-- R9: without motion toward it a limit changes its input alone. -/
theorem State.limitActive_aside {s : State} {x : Axis} {d : Dir} (h : (s.axis x).tickV.sign ≠ dirSign d) :
    s.limitActive x d = s.setAxis x ((s.axis x).setLimit d true) := by
  unfold State.limitActive
  split
  · next c => rw [← c, AxisUnit.setLimit_self, State.setAxis_self]
  · rw [if_neg (mt (AxisUnit.movesToward_iff _ d).mp h)]

theorem State.limitActive_toward {s : State} {x : Axis} {d : Dir} (c : (s.axis x).limit d = false)
    (h : (s.axis x).tickV.sign = dirSign d) :
    s.limitActive x d = (s.setAxis x ((s.axis x).setLimit d true)).limitMet x := by
  unfold State.limitActive
  simp only [c, Bool.false_eq_true, if_false]
  rw [if_pos ((AxisUnit.movesToward_iff _ d).mpr h)]

theorem State.limitMet_report {s : State} {x : Axis} (h : (s.axis x).leg = none ∨ (s.axis x).leg = some .stopping) :
    s.limitMet x = s.report .limit (FaultFields.ofAxis x) := by
  unfold State.limitMet
  rcases h with h | h <;> simp only [h]

theorem State.limitMet_outbound {s : State} {x : Axis} (h : (s.axis x).leg = some .outbound) :
    s.limitMet x = (s.setAxis x { s.axis x with leg := some .reversing, metLimit := true }).request x
      { goal := .brake .quick, asker := .positionUnit } := by
  unfold State.limitMet
  simp only [h]

theorem State.limitMet_second {s : State} {x : Axis}
    (h : (s.axis x).leg ∈ [some Leg.reversing, some .returning, some .turning, some .descent]) :
    s.limitMet x = s.secondLimit x := by
  unfold State.limitMet
  simp only [List.mem_cons, List.not_mem_nil, or_false] at h
  rcases h with h | h | h | h <;> simp only [h]

/-- An end limit changed leaves what a stop looks at and changes as it was. -/
theorem AxisUnit.setLimit_stoppedBy {a b : AxisUnit} {d : Dir} {v : Bool} {k : StopKind}
    (h : (a.setLimit d v).stoppedBy k b) : a.stoppedBy k b := by cases d <;> exact h

theorem AxisUnit.sensesSame.limit {a b : AxisUnit} (h : a.sensesSame b) (d : Dir) : b.limit d = a.limit d := by
  obtain ⟨-, -, -, -, -, -, hn, hp, -⟩ := h
  cases d
  · exact hn
  · exact hp

/-- Settles O18: the V of the last tick decides whether a limit becoming ACTIVE is met. -/
theorem endLimitsJudged : Obligations.EndLimitsJudged := by
  intro s x d hs s1
  have e1 : s.setAxis x ((s.axis x).setLimit d true) = s1 := by cases d <;> rfl
  rw [exec_endLimitActive hs]
  refine ⟨fun h => ?_, ?_, fun hc hv hl => ?_⟩
  · rw [State.limitActive_aside, e1]
    rcases h with h | h
    · rw [h]; cases d <;> decide
    · exact h
  · rw [show exec (.endLimitInactive x d) s = .next (s.setAxis x ((s.axis x).setLimit d false)) from
      live_of_not_inReset (fun t => t.setAxis x ((t.axis x).setLimit d false)) hs]
    cases d <;> rfl
  · have a1 : s1.axis x = (s.axis x).setLimit d true := by rw [← e1, State.setAxis_axis]
    have leg1 : (s1.axis x).leg = (s.axis x).leg := by rw [a1, AxisUnit.setLimit_eq]
    have f1 : s1.fault = s.fault := by rw [← e1, State.setAxis_fault]
    rw [State.limitActive_toward hc hv, e1, State.limitMet_report (by rw [leg1]; exact hl)]
    have rep := s1.report_reacts .limit (FaultFields.ofAxis x) (by decide)
    refine ⟨_, rfl, ?_, State.report_held _ _ _, fun n => ?_, ?_, rep.stopsOnly⟩
    · rw [(rep.axis x).sensesSame.limit, a1, AxisUnit.setLimit_same]
    · exact ⟨_, State.report_record _ _ _ (by rw [f1]; exact n), rfl, rfl⟩
    · have h := (rep.axis x).stoppedBy
      rw [a1] at h
      exact AxisUnit.setLimit_stoppedBy h

/-! ## The second limit of a search (R16) -/

theorem State.latch_second {s : State} {r : FaultRecord} {k : FaultKind} (f : FaultFields) (h : s.fault.record = some r)
    (e : s.fault.alsoSeen = []) (ne : r.kind ≠ k) :
    (s.latch k f).fault.record = some r ∧ (s.latch k f).fault.alsoSeen = [k] := by
  unfold State.latch
  simp only [h, e, ne, List.not_mem_nil, or_self, if_false]
  rw [State.requestStatus_fault]
  exact ⟨rfl, rfl⟩

theorem State.clearSent_other (s : State) {k : FaultKind} (h : k ≠ .busSilent) : s.clearSent k = s := by
  simp [State.clearSent, h]

/-- A report to an empty fault unit leaves the also-seen set empty (R167). -/
theorem State.report_alsoSeen {s : State} {k : FaultKind} (f : FaultFields) (h : s.fault.record = none) :
    (s.report k f).fault.alsoSeen = s.fault.alsoSeen := by
  have l : (s.latch k f).fault.alsoSeen = s.fault.alsoSeen := by
    unfold State.latch
    simp only [h]
    rw [State.requestStatus_fault]
    rfl
  rw [State.report_fault]
  unfold State.clearSent
  split <;> exact l

/-- Settles O19: OUTBOUND reverses under a brake at A_quick; on every later leg the search ends with HOME_FAIL and LIMIT. -/
theorem searchMeetsLimit : Obligations.SearchMeetsLimit := by
  intro s x d hs hc _ hv hst
  rw [exec_endLimitActive hs, State.limitActive_toward hc hv]
  have eleg : ((s.axis x).setLimit d true).leg = (s.axis x).leg := by rw [AxisUnit.setLimit_eq]
  have est : ((s.axis x).setLimit d true).state = (s.axis x).state := by rw [AxisUnit.setLimit_eq]
  refine ⟨fun hl => ?_, fun hl hn ha => ?_⟩
  · rw [State.limitMet_outbound (by rw [State.setAxis_axis, eleg]; exact hl)]
    rw [State.request_brake_tracking (by simp only [State.setAxis_axis]; rw [est, hst]) rfl]
    simp only [State.setAxis_axis, State.setAxis_setAxis]
    congr 2
    rw [← hst, ← est]
  · rw [State.limitMet_second (by rw [State.setAxis_axis, eleg]; exact hl)]
    simp only [State.secondLimit, State.setAxis_axis, State.setAxis_setAxis]
    generalize hs1 : s.setAxis x { (s.axis x).setLimit d true with leg := none } = s1
    have a1 : s1.axis x = { (s.axis x).setLimit d true with leg := none } := by rw [← hs1, State.setAxis_axis]
    have f1 : s1.fault = s.fault := by rw [← hs1, State.setAxis_fault]
    have r1 := s1.report_reacts .homeFail (FaultFields.ofAxis x) (by decide)
    have rec1 := s1.report_record .homeFail (FaultFields.ofAxis x) (by rw [f1]; exact hn)
    have also1 := State.report_alsoSeen (k := .homeFail) (FaultFields.ofAxis x) (by rw [f1]; exact hn)
    rw [f1, ha] at also1
    have r2 := r1.trans (State.report_reacts _ .limit (FaultFields.ofAxis x) (by decide))
    obtain ⟨rec2, also2⟩ := State.latch_second (k := .limit) (FaultFields.ofAxis x) rec1 also1 (by simp)
    have hx := r2.axis x
    have senses := hx.sensesSame
    have stop := hx.stoppedBy
    have leg := hx.leg
    rw [a1] at senses stop leg
    have f2 : ((s1.report .homeFail (FaultFields.ofAxis x)).report .limit (FaultFields.ofAxis x)).fault =
        ((s1.report .homeFail (FaultFields.ofAxis x)).latch .limit (FaultFields.ofAxis x)).fault := by
      rw [State.report_fault, State.clearSent_other _ (by decide)]
    rw [← f2] at rec2 also2
    refine ⟨_, _, rfl, ?_, ?_, rec2, rfl, rfl, also2, ?_, ?_, ?_, ?_, ?_, ?_⟩
    · rcases leg with h | h <;> rw [h]
    · rw [r2.mon]
    · simp only [AxisUnit.stoppedBy, est, hst] at stop; exact stop.1
    · rw [senses.limit]; exact AxisUnit.setLimit_same _ _ _
    · rw [senses.2.2.2.2.1]; show ((s.axis x).setLimit d true).referenced = _; rw [AxisUnit.setLimit_eq]
    · rw [senses.1]; show ((s.axis x).setLimit d true).e = _; rw [AxisUnit.setLimit_eq]
    · rw [r2.frame.nv, ← hs1, State.setAxis_nv]
    · rw [r2.frame.comm, ← hs1, State.setAxis_comm]

/-! ## Drive and chain faults (R41, R50, R51) -/

/-- Entry into FAULTED of axis `x`: R50's values, and the reports to its requesters. -/
theorem State.faultAxis_tells (s : State) (x : Axis) : Tells x (s.setAxis x (s.axis x).toFaulted) (s.faultAxis x) :=
  (State.tellStopped_tells _ x _).trans (State.tellStopped_tells _ x _)

theorem AxisUnit.toFaulted_sensesSame (a : AxisUnit) : a.sensesSame a.toFaulted := by repeat' constructor

theorem AxisUnit.sensesSame.trans {a b c : AxisUnit} (h : a.sensesSame b) (k : b.sensesSame c) : a.sensesSame c := by
  obtain ⟨h1, h2, h3, h4, h5, h6, h7, h8, h9, h10, h11, h12⟩ := h
  obtain ⟨k1, k2, k3, k4, k5, k6, k7, k8, k9, k10, k11, k12⟩ := k
  exact ⟨k1.trans h1, k2.trans h2, k3.trans h3, k4.trans h4, k5.trans h5, k6.trans h6, k7.trans h7, k8.trans h8,
    k9.trans h9, k10.trans h10, k11.trans h11, k12.trans h12⟩

theorem AxisUnit.LegEnds.sensesSame {a b : AxisUnit} (h : a.LegEnds b) : a.sensesSame b := by
  rw [h.1]; repeat' constructor

/-- A FAULTED axis stays as its entry left it through the reports and stops that follow. -/
theorem AxisUnit.faultedAt_of_halted {a b c : AxisUnit} {n : Nat} (h : a.toFaulted.LegEnds b)
    (k : b.HaltedTo n .quick c) : a.faultedAt c := by
  have hb := h.1
  have hst : b.state = .faulted := by rw [hb]; rfl
  have hc := k.eq
  rw [AxisUnit.halted_standing (by simp [hst])] at hc
  have hp : c.pending = none := k.pending.resolve_right fun q => by rw [hst] at q; cases q.1
  rw [hp, hb] at hc
  rw [hc]
  exact ⟨rfl, rfl, rfl, rfl, rfl, rfl, rfl, rfl, rfl, rfl, rfl, rfl⟩

theorem State.driveFault_effect (s : State) (x : Axis) :
    (s.axis x).faultedAt ((s.driveFault x).axis x) ∧ FaultKind.drive ∈ (s.driveFault x).fault.held ∧
      (s.fault.record = none → ∃ r, (s.driveFault x).fault.record = some r ∧ r.kind = .drive ∧
        r.fields = { axis := some x, zone := none, peer := none }) ∧
      (s.axis (otherAxis x)).stoppedBy .quick ((s.driveFault x).axis (otherAxis x)) ∧ s.stopsOnly (s.driveFault x) := by
  have tell := s.faultAxis_tells x
  have rep := (s.faultAxis x).report_reacts .drive (FaultFields.ofAxis x) (by decide)
  have own := tell.axis
  have other := tell.other
  rw [State.setAxis_axis] at own
  rw [State.setAxis_axis_other] at other
  have frame := ((Frame.ofSetAxis s x _).trans tell.frame).trans rep.frame
  have senses : ∀ y, (s.axis y).sensesSame ((s.driveFault x).axis y) := by
    intro y
    rcases eq_or_eq_otherAxis x y with rfl | rfl
    · exact ((AxisUnit.toFaulted_sensesSame _).trans own.sensesSame).trans (rep.axis y).sensesSame
    · have h := (rep.axis (otherAxis x)).sensesSame
      rwa [other] at h
  refine ⟨AxisUnit.faultedAt_of_halted own (rep.axis x), State.report_held _ _ _, fun n => ?_, ?_, ?_⟩
  · exact ⟨_, State.report_record _ _ _ (by rw [State.faultAxis_fault]; exact n), rfl, rfl⟩
  · have h := (rep.axis (otherAxis x)).stoppedBy
    rwa [other] at h
  · exact ⟨frame.pending, frame.inReset, frame.nv, frame.comm, frame.store, frame.tickLeft, frame.env, frame.rows,
      frame.chainOpen, frame.fresh, senses .slew, senses .rake⟩

/-- What the chain's opening leaves (R51), also where START finds it open: both axes FAULTED and E_STOP reported. -/
structure ChainFaults (s t : State) : Prop where
  frame : Frame s t
  slew : s.slew.faultedAt t.slew
  rake : s.rake.faultedAt t.rake
  senses : ∀ x, (s.axis x).sensesSame (t.axis x)
  held : FaultKind.eStop ∈ t.fault.held
  record : s.fault.record = none → ∃ r, t.fault.record = some r ∧ r.kind = .eStop ∧
    r.fields = { axis := none, zone := none, peer := none }
  notice : t.fault.notice = s.fault.notice

theorem State.latch_notice (s : State) (k : FaultKind) (f : FaultFields) :
    (s.latch k f).fault.notice = s.fault.notice := by
  unfold State.latch
  split
  · rw [State.requestStatus_fault]; rfl
  · split
    · rfl
    · rw [State.requestStatus_fault]; rfl

theorem State.report_notice (s : State) (k : FaultKind) (f : FaultFields) :
    (s.report k f).fault.notice = s.fault.notice := by
  rw [State.report_fault]
  refine Eq.trans ?_ (s.latch_notice k f)
  unfold State.clearSent
  split <;> rfl

theorem State.chainOpened_faults (s : State) : ChainFaults s s.chainOpened := by
  have tr := s.faultAxis_tells .rake
  have ts := (s.faultAxis .rake).faultAxis_tells .slew
  have rep := ((s.faultAxis .rake).faultAxis .slew).report_reacts .eStop FaultFields.none (by decide)
  have hslew : (s.faultAxis .rake).slew = s.slew := tr.other
  have hrake : ((s.faultAxis .rake).faultAxis .slew).rake = (s.faultAxis .rake).rake := ts.other
  have legS : s.slew.toFaulted.LegEnds ((s.faultAxis .rake).faultAxis .slew).slew := by
    have h := ts.axis
    rwa [State.setAxis_axis, State.axis_slew, hslew] at h
  have legR : s.rake.toFaulted.LegEnds ((s.faultAxis .rake).faultAxis .slew).rake := by
    rw [hrake]; exact tr.axis
  have hf : ((s.faultAxis .rake).faultAxis .slew).fault = s.fault := by
    rw [State.faultAxis_fault, State.faultAxis_fault]
  refine ⟨?_, AxisUnit.faultedAt_of_halted legS (rep.axis .slew), AxisUnit.faultedAt_of_halted legR (rep.axis .rake),
    ?_, State.report_held _ _ _, fun n => ⟨_, State.report_record _ _ _ (by rw [hf]; exact n), rfl, rfl⟩, ?_⟩
  · exact ((((Frame.ofSetAxis s .rake _).trans tr.frame).trans (.ofSetAxis _ .slew _)).trans ts.frame).trans rep.frame
  · intro x
    cases x
    · exact ((AxisUnit.toFaulted_sensesSame _).trans legS.sensesSame).trans (rep.axis .slew).sensesSame
    · exact ((AxisUnit.toFaulted_sensesSame _).trans legR.sensesSame).trans (rep.axis .rake).sensesSame
  · exact (State.report_notice _ _ _).trans (congrArg _ hf)

/-- Settles O30: each cause puts its axes into FAULTED and then reports, which stops the rest. -/
theorem driveAndChainFault : Obligations.DriveAndChainFault := by
  intro s x hs reported s1
  have hloss : exec (.driveLoss x) s = .next (s.readyInactive x) := live_of_not_inReset (·.readyInactive x) hs
  have keepsReady (h : (s.axis x).ready = false) : s1 = s := by
    show s.setAxis x { s.axis x with ready := false } = s
    rw [← h, State.setAxis_self]
  refine ⟨fun hst => ?_, fun hr hst => ?_, fun hst => ?_, fun hc => ?_, ?_⟩
  · have h : s.readyLimitEnds x = s.driveFault x := by simp [State.readyLimitEnds, hst]
    exact ⟨_, (live_of_not_inReset (·.readyLimitEnds x) hs).trans (congrArg _ h),
      (s.driveFault_effect x).1, ⟨(s.driveFault_effect x).2.1, (s.driveFault_effect x).2.2.1⟩,
      (s.driveFault_effect x).2.2.2⟩
  · have hl : (s.axis x).state.losesDrive = true := by
      rcases hst with h | h
      · revert h; rcases (s.axis x).state with _ | (_ | _) | _ | _ | _ | _ <;> simp [AxisState.releases, AxisState.losesDrive]
      · rw [h]; rfl
    have h : s.readyInactive x = s1.driveFault x := by simp [State.readyInactive, hr, hl, s1]
    obtain ⟨hfa, held, rec_, other, only⟩ := s1.driveFault_effect x
    have f1 : s1.fault = s.fault := State.setAxis_fault _ _ _
    have a1 : s1.axis x = { s.axis x with ready := false } := State.setAxis_axis _ _ _
    rw [a1] at hfa
    rw [f1] at rec_
    rw [show s1.axis (otherAxis x) = s.axis (otherAxis x) from State.setAxis_axis_other _ _ _] at other
    exact ⟨_, hloss.trans (congrArg _ h), hfa, ⟨held, rec_⟩, other, only⟩
  · rw [hloss]
    congr 1
    unfold State.readyInactive
    split
    · rcases hst with h | h | h <;> simp only [h, AxisState.losesDrive, Bool.false_eq_true, if_false, s1]
    · next h => exact (keepsReady (Bool.eq_false_iff.mpr h)).symm
  · have h : s.chainOpens = ({ s with chainOpen := true } : State).chainOpened := by simp [State.chainOpens, hc]
    have c := State.chainOpened_faults { s with chainOpen := true }
    exact ⟨_, (live_of_not_inReset State.chainOpens hs).trans (congrArg _ h), c.slew, c.rake, ⟨c.held, c.record⟩,
      c.frame.pending, c.frame.inReset, c.frame.nv, c.frame.comm, c.frame.store, c.frame.tickLeft, c.frame.env,
      c.frame.rows, c.frame.chainOpen, c.frame.fresh, c.senses .slew, c.senses .rake⟩
  · exact live_of_not_inReset (fun t => { t with chainOpen := false }) hs

end Sys2Proof.Machine
end

-- ==== Proofs: a command heard and a homing run started ====
section
/-! SUPPORT. How a COMMAND frame reaches its owner (R157, R162), and the start of a homing run (R12, R143, R144, R149). -/

namespace Sys2Proof.Machine

/-! ## A frame heard (R157) -/

/-- R113: a sender that is no double of this station passes the duplicate check. -/
theorem State.checkDuplicate_of_hears {s : State} {snd : Sender} (h : s.hears snd) : s.checkDuplicate snd = s := by
  obtain ⟨-, -, hd⟩ := h
  unfold State.checkDuplicate State.station
  rw [if_neg]
  rintro ⟨h0, hn, ht⟩
  rcases hd with h | h | h
  · exact h0 h
  · exact h hn
  · exact ht h

/-- A frame of a sender that is heard is handed on as it stands (R157, R166). -/
theorem State.receive_of_hears {s : State} {snd : Sender} (h : s.hears snd) (frame : List Byte) (f : State → State) :
    s.receive frame true snd f = f (s.heard frame) := by
  have hd : (s.heard frame).checkDuplicate snd = s.heard frame := State.checkDuplicate_of_hears h
  have hx : (s.heard frame).examines = true ∧ (s.heard frame).comm.mode ≠ .isolated := by
    unfold State.examines State.heard
    rcases h.2.1 with e | e | ⟨e, n⟩ <;> simp [e]
    exact n
  show (s.heard frame).sortFrame snd f = _
  unfold State.sortFrame
  rw [if_pos hx.1]
  simp only [hd]
  rw [if_neg hx.2]

/-- A command of a configured console gets its owner's outcome (R162, R165). -/
theorem State.command_of_commanded {s : State} {h : CommandHead} (c : s.commanded h) (frame : List Byte)
    (owner : State → State × CmdOutcome) :
    (s.heard frame).command h true owner =
      (owner (s.heard frame)).1.giveOutcome h.sender.station.toNat h.tag.toNat (owner (s.heard frame)).2 := by
  obtain ⟨-, hm, hr, ht, hc⟩ := c
  have ha : (s.heard frame).addressed h = true := by
    show (inTargets h.targets s.station && (decide (s.comm.mode = .unconfigured) || s.consoles.contains _)) = true
    simp [ht, hc]
  have hb : (s.heard frame).busRefusal true = none := by
    simp [State.busRefusal, State.heard, hr, hm]
  unfold State.command
  simp only [ha, hb, if_true]

/-! ## The conditions of a run (R143, R144) -/

theorem SeqState.atEase_eq_false_iff (q : SeqState) : q.atEase = false ↔ q = .armed ∨ q = .running ∨ q = .paused := by
  cases q <;> decide

/-- The conditions of R143 in their order, with R144's exception beside the fifth. -/
theorem State.judgeRun_eq (s : State) (x : Axis) (d : Dir) : s.judgeRun x d = s.runRefusal x d := by
  unfold State.judgeRun State.runRefusal State.limitException
  simp only [SeqState.atEase_eq_false_iff, Bool.and_eq_true, List.all_eq_true, decide_eq_true_eq, Bool.not_eq_true']

theorem State.firstDir_eq (s : State) (x : Axis) : s.firstDir x = s.searchDir x := by cases x <;> rfl

/-- A run whose conditions pass does not point toward an ACTIVE limit, so the lock lets its VELOCITY request pass (R11). -/
theorem State.lockRefuses_of_runRefusal {s : State} {x : Axis} {d : Dir} (h : s.runRefusal x d = none) (v : Nat) :
    (s.axis x).lockRefuses (.velocity d v) = false := by
  have hl : (s.axis x).limit d = false := by
    unfold State.runRefusal at h
    repeat' (split at h; · cases h)
    simpa using ‹¬ (s.axis x).limit d = true›
  rw [Bool.eq_false_iff, Ne, AxisUnit.lockRefuses_iff]
  rintro (⟨n, p, -⟩ | ⟨e, he, hlim⟩)
  · cases d
    · exact Bool.noConfusion (hl.symm.trans n)
    · exact Bool.noConfusion (hl.symm.trans p)
  · cases he
    exact Bool.noConfusion (hl.symm.trans hlim)

/-- R149, R12: an accepted HOME of an axis in OFF, whole. -/
theorem State.startHome_off {s : State} {x : Axis} (hl : ∀ v, (s.axis x).lockRefuses (.velocity (s.searchDir x) v) = false)
    (ho : (s.axis x).state = .off) (hn : (s.axis x).ready = false) (hr : s.comm.restartPending = false) :
    s.startHome x = { s with mon := { s.mon with run := .home x }, bus := (s.startHome x).bus }.setAxis x { s.axis x with
      referenced := false, leg := some .outbound, metLimit := false, p := (s.axis x).e, f := 0
      state := .starting .awaitReady, timer := some 500, driveEnable := true, brakeRelease := false
      pending := some { asker := .positionUnit, goal := (.velocity (s.searchDir x)
        (max (s.params x).vcreep (min (s.params x).vmax (s.params x).vhome))) } } := by
  let a : AxisUnit := { s.axis x with referenced := false, leg := some .outbound, metLimit := false }
  let u : State := { s.setAxis x a with mon := { s.mon with run := .home x }, bus := (s.setReferenced x false).bus }
  have hu : s.startHome x = u.request x { goal := .velocity (s.firstDir x) (s.params x).vhome, asker := .positionUnit } := by
    unfold State.startHome
    simp only
    congr 1
    rw [State.setReferenced_eq]
    cases x <;> rfl
  have ha : u.axis x = a := by cases x <;> rfl
  have hp : u.params x = s.params x := by cases x <;> rfl
  have hc : u.comm = s.comm := State.setAxis_comm _ _ _
  have done : u.request x { goal := .velocity (s.firstDir x) (s.params x).vhome, asker := .positionUnit } =
      u.setAxis x { a with
        p := a.e, f := 0, state := .starting .awaitReady, timer := some 500, driveEnable := true, brakeRelease := false
        pending := some { asker := .positionUnit, goal := (.velocity (s.searchDir x)
          (max (s.params x).vcreep (min (s.params x).vmax (s.params x).vhome))) } } := by
    rw [State.request_eq, State.noticed_velocity, s.firstDir_eq]
    simp only [State.clamped, clampGoal, clampSpeed, hp]
    rw [if_neg (by rw [ha]; exact ne_true_of_eq_false (hl _)),
      State.placeRequest_off _ (by rw [ha]; exact ho) (by rw [hc]; exact hr) (by rw [ha]; exact hn), ha]
  rw [done] at hu
  rw [hu]
  cases x <;> rfl

/-- Settles O46: the HOME passes R143's conditions, so its owner starts the search and the outcome is ACCEPTED. -/
theorem homeStarts : Obligations.HomeStarts := by
  intro s h x c hrun ho hn
  have hdef : axisOfByte (axisByte x) = some x := by cases x <;> decide
  let frame : List Byte := commandFrame 3 h [axisByte x]
  have hjudge : (s.heard frame).judgeRun x ((s.heard frame).firstDir x) = none := by
    rw [State.judgeRun_eq, State.firstDir_eq]
    exact hrun
  have hexec : exec (.home h (axisByte x)) s =
      .next (((s.heard frame).startHome x).giveOutcome h.sender.station.toNat h.tag.toNat .accepted) := by
    refine (live_of_not_inReset (·.rxHome h (axisByte x)) c.1.1).trans (congrArg _ ?_)
    have hrx : s.rxHome h (axisByte x) = (s.heard frame).command h true (fun t => t.ownHome x) := by
      unfold State.rxHome State.receiveCommand
      simp only [State.receive_of_hears c.1, hdef, Option.isSome_some, frame]
    rw [hrx, State.command_of_commanded c]
    simp only [State.ownHome, hjudge]
  have hstart : (s.heard frame).startHome x = _ :=
    State.startHome_off (fun v => State.lockRefuses_of_runRefusal (s := s.heard frame) hrun v) ho hn c.2.2.1
  refine ⟨_, hexec, ?_, State.giveOutcome_outcome _ _ _ _, State.requestStatus_pending _⟩
  rw [State.giveOutcome_eq, hstart]
  cases x <;> rfl

end Sys2Proof.Machine
end

-- ==== Proofs: resets ====
section
/-! SUPPORT. What the cold-reset values are, and that a part held in reset takes nothing but a reset (R18, R54, R180). -/

namespace Sys2Proof.Machine

/-- A part held in reset takes no command but a reset (R54). -/
theorem exec_of_inReset {s : State} (h : s.inReset = true) {c : Instr} (hc : ∀ p, c ≠ .coldReset p) (hr : c ≠ .resetTaken) :
    exec c s = .next s := by
  cases s
  subst h
  cases c
  case coldReset p => exact absurd rfl (hc p)
  case resetTaken => exact absurd rfl hr
  all_goals rfl

/-- An ERASE_SLOT or LOCK_SLOT that a reset cut short leaves its slot failing its check (R186; log entry 5). -/
theorem Nonvolatile.tear_slot {nv : Nonvolatile} {fresh n : Nat} {j : StoreJob} {sl : Slot}
    (h : j.op = .erase n ∨ j.op = .lock n) (hs : nv.slots[n - 1]? = some sl) :
    ∃ sl', (nv.tear fresh (some j)).slots[n - 1]? = some sl' ∧ sl'.passes = false := by
  unfold Nonvolatile.tear
  rcases h with h | h <;> simp only [h, List.getElem?_modify_eq, hs]
  · exact ⟨_, rfl, rfl⟩
  · exact ⟨_, rfl, rfl⟩

/-- Settles O53: each reset is a record of cold-reset values with what it carries over. -/
theorem resets : Obligations.Resets := by
  intro s pins c x coldAxis cold unref
  have coldAt (p : Pins) (b : Bool) : cold { s.coldStart p with inReset := b } :=
    ⟨rfl, rfl, rfl, ⟨rfl, rfl, rfl, rfl, rfl, rfl, rfl, rfl, rfl, rfl, rfl, rfl⟩,
      ⟨rfl, rfl, rfl, rfl, rfl, rfl, rfl, rfl, rfl, rfl, rfl, rfl⟩, rfl, rfl, rfl, rfl, rfl, rfl, rfl, rfl, rfl, rfl, rfl,
      rfl, rfl, rfl, rfl, rfl, rfl, rfl, rfl, rfl, rfl, rfl, rfl⟩
  have unrefAt (p : Pins) (b : Bool) : unref { s.coldStart p with inReset := b } := by
    cases x <;> exact ⟨rfl, rfl, rfl, rfl⟩
  have keeps (p : Pins) (h : s.store.job = none) : (s.coldStart p).nv = s.nv := by
    show s.nv.tear s.fresh s.store.job = s.nv
    rw [h]; rfl
  refine ⟨⟨_, rfl, coldAt pins false, unrefAt pins false, rfl, rfl, rfl, rfl, rfl, rfl, rfl, rfl, rfl, rfl, rfl, rfl,
    keeps pins, fun j hj ⟨bs, hop⟩ => ?_, fun j n sl hj hop hsl => ?_⟩,
    ⟨_, rfl, coldAt s.pins true, unrefAt s.pins true, rfl, keeps s.pins, exec_of_inReset rfl⟩,
    fun hs hp hm => ⟨s.restarted, ?_, ?_⟩, fun hs hp => ?_⟩
  · show (s.nv.tear s.fresh s.store.job).recordTorn = true ∧ (s.nv.tear s.fresh s.store.job).slots = s.nv.slots
    rw [hj]
    simp [Nonvolatile.tear, hop]
  · show ∃ sl', (s.nv.tear s.fresh s.store.job).slots[n - 1]? = some sl' ∧ _
    rw [hj]
    exact Nonvolatile.tear_slot hop hsl
  · refine (live_of_not_inReset State.warmRestart hs).trans (congrArg _ ?_)
    simp [State.warmRestart, hp, hm]
  · have warm : cold s.restarted :=
      ⟨rfl, rfl, rfl, ⟨rfl, rfl, rfl, rfl, rfl, rfl, rfl, rfl, rfl, rfl, rfl, rfl⟩,
        ⟨rfl, rfl, rfl, rfl, rfl, rfl, rfl, rfl, rfl, rfl, rfl, rfl⟩, rfl, rfl, rfl, rfl, rfl, rfl, rfl, rfl, rfl, rfl, rfl,
        rfl, rfl, rfl, rfl, rfl, rfl, rfl, rfl, rfl, rfl, rfl, rfl⟩
    refine ⟨warm, rfl, ?_⟩
    cases x <;> exact ⟨rfl, rfl, rfl, rfl, rfl, rfl, rfl, rfl, rfl, rfl, rfl⟩
  · refine (live_of_not_inReset State.warmRestart hs).trans (congrArg _ ?_)
    simp [State.warmRestart, hp]

end Sys2Proof.Machine
end

-- ==== Proofs: the end of START ====
section
/-! SUPPORT. The end of START (R19, R78, R105, R178), in its three stages: the checks and the blocks' start state, the axes after a
warm restart, and the chain and the STOP line as read there. -/

namespace Sys2Proof.Machine

/-! ## The peer records that START builds (R105) -/

theorem mem_insertPeer (r o : PeerRecord) (ps : List PeerRecord) : o ∈ insertPeer r ps ↔ o = r ∨ o ∈ ps := by
  induction ps with
  | nil => simp [insertPeer]
  | cons q qs ih =>
    unfold insertPeer
    split
    · simp
    · rw [List.mem_cons, ih, List.mem_cons]; tauto

theorem mem_zoneRecords (o : PeerRecord) (l : List Nat) :
    o ∈ zoneRecords l ↔ ∃ n ∈ l, o = PeerRecord.make n true false := by
  have fold (ps : List PeerRecord) :
      o ∈ l.foldl (fun ps n => insertPeer (PeerRecord.make n true false) ps) ps ↔
        o ∈ ps ∨ ∃ n ∈ l, o = PeerRecord.make n true false := by
    induction l generalizing ps with
    | nil => simp
    | cons m l ih => rw [List.foldl_cons, ih, mem_insertPeer]; simp only [List.mem_cons, exists_eq_or_imp]; tauto
  unfold zoneRecords
  rw [fold]
  simp

theorem mem_distinct (n : Nat) (l : List Nat) : n ∈ distinct l ↔ n ∈ l := by
  induction l with
  | nil => simp [distinct]
  | cons m l ih =>
    unfold distinct
    split
    · next h => rw [ih, List.mem_cons]; exact ⟨.inr, fun e => e.elim (fun e => e ▸ ih.mp (e ▸ h)) id⟩
    · rw [List.mem_cons, ih, List.mem_cons]

/-- Records that have the role ZONE alone outlive a conversion (R107). -/
theorem dropScript_zoneRecords (l : List Nat) : dropScript (zoneRecords l) = zoneRecords l := by
  have h : ∀ o ∈ zoneRecords l, o.zoneRole = true ∧ o.scriptRole = false := by
    intro o ho
    obtain ⟨n, -, rfl⟩ := (mem_zoneRecords o l).mp ho
    exact ⟨rfl, rfl⟩
  unfold dropScript
  rw [List.filter_eq_self.mpr fun o ho => (h o ho).1]
  calc (zoneRecords l).map (fun r => { r with scriptRole := false })
    _ = (zoneRecords l).map id := List.map_congr_left fun o ho => by rw [← (h o ho).2]; rfl
    _ = zoneRecords l := List.map_id _

/-! ## The record that comes in force (R178) -/

/-- What R178 asks of the stored record and the straps. -/
def Nonvolatile.Good (nv : Nonvolatile) (n : Nat) : Prop :=
  n ≠ 0 ∧ nv.recordTorn = false ∧ nv.record.length = 154 ∧
    crc16 (nv.record.take 152) = join16 (nv.record.getD 152 0) (nv.record.getD 153 0) ∧ recordOk n nv.record = true

theorem Nonvolatile.loaded_of_good {nv : Nonvolatile} {n : Nat} (h : nv.Good n) :
    nv.loaded n = some (readRecord nv.record) := by
  obtain ⟨h0, ht, hl, hc, ho⟩ := h
  unfold Nonvolatile.loaded Nonvolatile.crcGood
  rw [if_pos ⟨h0, by simp only [ht, hl, hc, decide_true]; rfl, ho⟩]

theorem Nonvolatile.loaded_of_not_good {nv : Nonvolatile} {n : Nat} (h : ¬ nv.Good n) : nv.loaded n = none := by
  unfold Nonvolatile.loaded
  rw [if_neg]
  rintro ⟨h0, hc, ho⟩
  simp only [Nonvolatile.crcGood, Bool.and_eq_true, Bool.not_eq_true', decide_eq_true_eq] at hc
  exact h ⟨h0, hc.1.1, hc.1.2, hc.2, ho⟩

/-! ## The axes after a warm restart (R19, R38) -/

/-- The axes as the end of START finds or leaves them: after a warm restart at rest on E, the reference kept where the geometry
is unchanged. -/
def State.readiedAxis (s : State) (n : Nat) (x : Axis) : AxisUnit :=
  if s.comm.warm then
    { (s.axis x).rest with
      referenced := (s.axis x).referenced && keepsReference s.comm.prior (s.nv.loaded n) x }
  else s.axis x

/-- The state in which the chain and the STOP line are read. -/
def State.readied (s : State) (straps : BitVec 5) : State :=
  if s.comm.warm then (s.started straps).resumeAxes s.comm.prior else s.started straps

/-- R19: the judgement of the reference changes the flag and the bus's queue alone. -/
theorem State.judgeReference_eq (s : State) (prior : Option Record) (x : Axis) :
    s.judgeReference prior x = { s.setAxis x { s.axis x with
        referenced := (s.axis x).referenced && keepsReference prior s.comm.record x } with
      bus := (s.judgeReference prior x).bus } := by
  unfold State.judgeReference
  split
  · next h => rw [h, Bool.and_true]; cases x <;> rfl
  · next h => rw [Bool.eq_false_iff.mpr h, Bool.and_false, State.setReferenced_eq]

theorem State.setReferenced_outcome (s : State) (x : Axis) (r : Bool) :
    (s.setReferenced x r).bus.outcome = s.bus.outcome := by
  unfold State.setReferenced
  split
  · rfl
  · rw [State.requestStatus_bus, State.setAxis_bus]

theorem State.judgeReference_bus (s : State) (prior : Option Record) (x : Axis) :
    (s.judgeReference prior x).bus.nextDue = s.bus.nextDue ∧ (s.judgeReference prior x).bus.firstDue = s.bus.firstDue ∧
      (s.judgeReference prior x).bus.outcome = s.bus.outcome := by
  unfold State.judgeReference
  split
  · exact ⟨rfl, rfl, rfl⟩
  · exact ⟨(s.setReferenced_frame x false).nextDue, (s.setReferenced_frame x false).firstDue,
      s.setReferenced_outcome x false⟩

theorem State.resumeAxes_eq (s : State) (prior : Option Record) :
    s.resumeAxes prior = { s with
      slew := { s.slew.rest with referenced := s.slew.referenced && keepsReference prior s.comm.record .slew }
      rake := { s.rake.rest with referenced := s.rake.referenced && keepsReference prior s.comm.record .rake }
      tickLeft := Config.tickPeriod, bus := (s.resumeAxes prior).bus } := by
  unfold State.resumeAxes
  simp only
  rw [State.judgeReference_eq _ prior .rake, State.judgeReference_eq s prior .slew]
  rfl

theorem State.resumeAxes_bus (s : State) (prior : Option Record) :
    (s.resumeAxes prior).bus.nextDue = s.bus.nextDue ∧ (s.resumeAxes prior).bus.firstDue = s.bus.firstDue ∧
      (s.resumeAxes prior).bus.outcome = s.bus.outcome := by
  obtain ⟨a, b, c⟩ := (s.judgeReference prior .slew).judgeReference_bus prior .rake
  obtain ⟨d, e, f⟩ := s.judgeReference_bus prior .slew
  exact ⟨a.trans d, b.trans e, c.trans f⟩

/-- What stands when the chain and the STOP line are read. -/
structure Readied (level : BitVec 5) (s t : State) : Prop where
  axis : ∀ x, t.axis x = s.readiedAxis level.toNat x
  rows : t.zones.rows = match s.nv.loaded level.toNat with | some r => r.zones.map GuardRow.fresh | none => []
  peers : t.peers = match s.nv.loaded level.toNat with | some r => zoneRecords r.zonePeers | none => []
  nv : t.nv = { s.nv with slots := s.nv.slots.map Slot.checked }
  mode : t.comm.mode = if (s.nv.loaded level.toNat).isSome then .operational else .unconfigured
  straps : t.comm.straps = level.toNat
  strapLevel : t.comm.strapLevel = level
  record : t.comm.record = s.nv.loaded level.toNat
  nextDue : t.bus.nextDue = if level.toNat = 0 then none else some 25
  firstDue : t.bus.firstDue = false
  outcome : t.bus.outcome = s.bus.outcome
  store : t.store = s.store
  seq : t.seq = s.seq
  mon : t.mon = s.mon
  chainOpen : t.chainOpen = s.chainOpen
  line : t.fault.lineAsserted = s.fault.lineAsserted
  faultRecord : t.fault.record = s.fault.record
  alsoSeen : t.fault.alsoSeen = s.fault.alsoSeen
  notice : t.fault.notice = if (s.nv.slots.map Slot.checked).any (·.bad) then some .slotBad else s.fault.notice

theorem State.started_fault (s : State) (straps : BitVec 5) :
    (s.started straps).fault = { s.fault with
      notice := if (s.nv.slots.map Slot.checked).any (·.bad) then some .slotBad else s.fault.notice } := by
  show (if _ then _ else _) = _
  split <;> rfl

theorem State.started_nextDue (s : State) (straps : BitVec 5) :
    (s.started straps).bus.nextDue = if straps.toNat = 0 then none else some 25 := by
  show (if straps.toNat ≠ 0 then some 25 else none) = _
  by_cases h : straps.toNat = 0 <;> simp [h]

theorem State.readied_readied (s : State) (straps : BitVec 5) : Readied straps s (s.readied straps) := by
  have f := s.started_fault straps
  unfold State.readied
  split
  · next h =>
    obtain ⟨due, first, out⟩ := (s.started straps).resumeAxes_bus s.comm.prior
    have hb := due.trans (s.started_nextDue straps)
    rw [State.resumeAxes_eq]
    refine ⟨fun x => ?_, rfl, rfl, rfl, rfl, rfl, rfl, rfl, hb, first, out, rfl, rfl, rfl, rfl, ?_, ?_, ?_, ?_⟩
    · unfold State.readiedAxis
      rw [if_pos h]
      cases x <;> rfl
    · exact (congrArg FaultUnit.lineAsserted f :)
    · exact (congrArg FaultUnit.record f :)
    · exact (congrArg FaultUnit.alsoSeen f :)
    · exact (congrArg FaultUnit.notice f :)
  · next h =>
    refine ⟨fun x => ?_, rfl, rfl, rfl, rfl, rfl, rfl, rfl, s.started_nextDue straps, rfl, rfl, rfl, rfl, rfl, rfl,
      ?_, ?_, ?_, ?_⟩
    · unfold State.readiedAxis
      rw [if_neg h]
      cases x <;> rfl
    all_goals rw [f]

/-! ## The chain and the STOP line as read at the end of START (R51, R175) -/

theorem State.lineReactions_fault (s : State) : s.lineReactions.fault = s.fault := by
  simp [State.lineReactions, State.endRun_fault, State.endConversion_fault, State.stopBoth_fault]

/-- An ARMED conversion is refused for the STOP line (R175). -/
theorem State.lineReactions_outcome {s : State} {c n : Nat} (h : s.seq.state = .armed) (k : s.seq.armed = some (c, n)) :
    s.lineReactions.bus.outcome = some { console := c, tag := n, outcome := .refusedStopLine } := by
  have same : (s.stopBoth .quick).seq = s.seq :=
    (s.stopBoth_marks .quick).2 (by simp [Sequencer.converting, h])
  unfold State.lineReactions
  rw [State.endRun_bus]
  exact State.endConversion_outcome _ (by rw [same]; exact h) (by rw [same]; exact k)

/-- What reading the chain and the line does not change. -/
structure InputsRead (s t : State) : Prop where
  frame : Frame s t
  senses : ∀ x, (s.axis x).sensesSame (t.axis x)
  notice : t.fault.notice = s.fault.notice

theorem State.readChain_read (s : State) : InputsRead s s.readChain := by
  unfold State.readChain
  split
  · have c := s.chainOpened_faults
    exact ⟨c.frame, c.senses, c.notice⟩
  · exact ⟨.refl s, fun _ => .refl _, rfl⟩

theorem State.readLine_read (s : State) : InputsRead s s.readLine := by
  unfold State.readLine
  split
  · exact ⟨s.lineReactions_react.frame, fun x => (s.lineReactions_react.axis x).sensesSame,
      congrArg _ s.lineReactions_fault⟩
  · exact ⟨.refl s, fun _ => .refl _, rfl⟩

theorem InputsRead.trans {s t u : State} (h : InputsRead s t) (k : InputsRead t u) : InputsRead s u :=
  ⟨h.frame.trans k.frame, fun x => (h.senses x).trans (k.senses x), k.notice.trans h.notice⟩

theorem State.readChain_closed {s : State} (h : s.chainOpen = false) : s.readChain = s := by
  simp [State.readChain, h]

theorem State.readLine_fault (s : State) : s.readLine.fault = s.fault := by
  unfold State.readLine
  split
  · exact s.lineReactions_fault
  · rfl

/-- A FAULTED axis stays as its entry left it when a further stop meets it. -/
theorem AxisUnit.faultedAt.halted {a b c : AxisUnit} {n : Nat} (h : a.faultedAt b) (k : b.HaltedTo n .quick c) :
    a.faultedAt c := by
  have hc := k.eq
  rw [AxisUnit.halted_standing (by simp [h.1])] at hc
  have hp : c.pending = none := k.pending.resolve_right fun q => by rw [h.1] at q; cases q.1
  rw [hp] at hc
  rw [hc]
  obtain ⟨h1, h2, h3, h4, h5, h6, h7, -, h9, h10, h11, h12⟩ := h
  exact ⟨h1, h2, h3, h4, h5, h6, h7, rfl, h9, h10, h11, h12⟩

theorem State.readLine_faulted {s : State} {x : Axis} {a : AxisUnit} (h : a.faultedAt (s.axis x)) :
    a.faultedAt (s.readLine.axis x) := by
  unfold State.readLine
  split
  · exact h.halted (s.lineReactions_react.axis x)
  · exact h

/-- An open chain puts both axes into FAULTED with E_STOP (R51). -/
theorem State.readChain_open {s : State} (h : s.chainOpen = true) :
    (∀ x, (s.axis x).faultedAt ((s.readChain.readLine).axis x)) ∧ FaultKind.eStop ∈ s.readChain.readLine.fault.held := by
  have c := s.chainOpened_faults
  have e : s.readChain = s.chainOpened := by simp [State.readChain, h]
  rw [e, State.readLine_fault]
  refine ⟨fun x => State.readLine_faulted ?_, c.held⟩
  cases x
  · exact c.slew
  · exact c.rake

theorem State.readiedAxis_e (s : State) (n : Nat) (x : Axis) :
    (s.readiedAxis n x).e = (s.axis x).e ∧ (s.readiedAxis n x).lastDir = (s.axis x).lastDir ∧
      (s.readiedAxis n x).tickV = (s.axis x).tickV ∧ (s.readiedAxis n x).state = (s.axis x).state := by
  unfold State.readiedAxis
  split <;> exact ⟨rfl, rfl, rfl, rfl⟩

theorem State.readiedAxis_cold {s : State} (n : Nat) (x : Axis) (h : s.comm.warm = false) :
    s.readiedAxis n x = s.axis x := by simp [State.readiedAxis, h]

theorem State.readiedAxis_warm {s : State} (n : Nat) (x : Axis) (h : s.comm.warm = true) :
    s.readiedAxis n x = { (s.axis x).rest with
      referenced := (s.axis x).referenced && keepsReference s.comm.prior (s.nv.loaded n) x } := by
  simp [State.readiedAxis, h]

/-- R19: the reference is kept with a prior record of the same geometry. -/
theorem keepsReference_iff (prior : Option Record) (new : Option Record) (x : Axis) :
    keepsReference prior new x = true ↔
      ∃ r, new = some r ∧ ∃ o, prior = some o ∧ (o.axis x).geometry = (r.axis x).geometry := by
  unfold keepsReference
  cases prior <;> cases new <;> simp

theorem AxisUnit.faultedAt.of_alike {a b c : AxisUnit} (h : b.faultedAt c) (e : b.e = a.e) (v : b.tickV = a.tickV) :
    a.faultedAt c := by
  unfold AxisUnit.faultedAt at h ⊢
  rwa [e, v] at h

theorem exec_startEnd {s : State} (h : s.inReset = false) (straps : BitVec 5) :
    exec (.startEnd straps) s = .next (s.startEnds straps) := live_of_not_inReset (·.startEnds straps) h

theorem State.startEnds_eq {s : State} (straps : BitVec 5) (h : s.comm.mode = .start) :
    s.startEnds straps = (s.readied straps).readChain.readLine := by
  unfold State.startEnds State.readied
  rw [if_pos h]

/-- Settles O54: the blocks as `Readied` has them, then the chain and the STOP line. -/
theorem startEnds : Obligations.StartEnds := by
  intro s straps x hs n bs good r slots
  rw [exec_startEnd hs]
  refine ⟨fun hm => by rw [State.startEnds, if_neg hm], fun hm => ?_⟩
  rw [State.startEnds_eq straps hm]
  have rd := s.readied_readied straps
  generalize s.readied straps = s2 at rd
  have read := s2.readChain_read.trans s2.readChain.readLine_read
  have fr := read.frame
  have ax := s.readiedAxis_e n x
  have loadedGood (g : good) : s.nv.loaded n = some r := Nonvolatile.loaded_of_good g
  have loadedBad (g : ¬ good) : s.nv.loaded n = none := Nonvolatile.loaded_of_not_good g
  have hpeers : s2.readChain.readLine.peers = s2.peers := by
    refine fr.peers ?_
    rw [rd.peers]
    split
    · exact dropScript_zoneRecords _
    · rfl
  have ref : (s2.readChain.readLine.axis x).referenced = (s.readiedAxis n x).referenced := by
    have h := read.senses x
    rw [rd.axis x] at h
    exact h.2.2.2.2.1
  have quiet (hc : s.chainOpen = false) (hl : s.fault.lineAsserted = false) : s2.readChain.readLine = s2 := by
    rw [State.readChain_closed (rd.chainOpen.trans hc), State.readLine, if_neg]
    rw [rd.line, hl]; simp
  refine ⟨_, rfl, ?_, ?_, ?_, ?_, ?_, ?_, ?_, fun g => ?_, fun g => ?_, fun hc => ?_, fun hc => ?_, fun hc hl hw => ?_,
    fun hc hl hw => ?_, ?_, ?_, fun hw => ?_, fun hw => ?_, fun hc hl g => ?_, fun hc hl g => ?_⟩
  · rw [fr.comm]; exact rd.straps
  · rw [fr.comm]; exact rd.strapLevel
  · rw [fr.nv]; exact rd.nv
  · rw [fr.nextDue]; exact rd.nextDue
  · rw [fr.firstDue]; exact rd.firstDue
  · rw [fr.store]; exact rd.store
  · rw [read.notice]; exact rd.notice
  · have hlo := loadedGood g
    have hp : s2.readChain.readLine.peers = zoneRecords r.zonePeers := by rw [hpeers, rd.peers, hlo]
    refine ⟨by rw [fr.comm, rd.mode, hlo]; rfl, by rw [fr.comm, rd.record, hlo], ?_, fun k => ?_, fun o ho => ?_⟩
    · rw [fr.rows, rd.rows, hlo]; rfl
    · simp only [hp, mem_zoneRecords, Record.zonePeers, mem_distinct]
      constructor
      · rintro ⟨o, ⟨m, hm, rfl⟩, rfl⟩; exact hm
      · exact fun hk => ⟨_, ⟨k, hk, rfl⟩, rfl⟩
    · rw [hp] at ho
      obtain ⟨m, -, rfl⟩ := (mem_zoneRecords _ _).mp ho
      rfl
  · have hlo := loadedBad g
    exact ⟨by rw [fr.comm, rd.mode, hlo]; rfl, by rw [fr.comm, rd.record, hlo], by rw [fr.rows, rd.rows, hlo],
      by rw [hpeers, rd.peers, hlo]⟩
  · obtain ⟨fa, held⟩ := State.readChain_open (rd.chainOpen.trans hc)
    have at_ (y : Axis) : (s.axis y).faultedAt (s2.readChain.readLine.axis y) := by
      obtain ⟨he, -, hv, -⟩ := s.readiedAxis_e n y
      exact (fa y).of_alike (by rw [rd.axis]; exact he) (by rw [rd.axis]; exact hv)
    exact ⟨at_ .slew, at_ .rake, held⟩
  · rw [State.readLine_fault, State.readChain_closed (rd.chainOpen.trans hc)]
    exact ⟨rd.faultRecord, rd.alsoSeen⟩
  · rw [quiet hc hl, rd.axis, State.readiedAxis_cold _ _ hw]
  · rw [quiet hc hl, rd.axis, State.readiedAxis_warm _ _ hw]
    exact ⟨rfl, rfl⟩
  · rw [(read.senses x).1, rd.axis]; exact ax.1
  · rw [(read.senses x).2.2.2.1, rd.axis]; exact ax.2.1
  · rw [ref, State.readiedAxis_cold _ _ hw]
  · rw [ref, State.readiedAxis_warm _ _ hw]
    simp only [Bool.and_eq_true, keepsReference_iff]
    by_cases g : good
    · simp only [loadedGood g, g, Option.some.injEq, exists_eq_left', true_and]
    · simp [loadedBad g, g]
  · have hr : s2.readLine = s2.lineReactions := by
      rw [State.readLine, if_pos ⟨by rw [rd.mode, loadedGood g]; rfl, rd.line.trans hl⟩]
    have re := s2.lineReactions_react
    have hx := re.axis x
    rw [rd.axis] at hx
    rw [State.readChain_closed (rd.chainOpen.trans hc), hr]
    refine ⟨by rw [State.lineReactions_fault]; exact rd.line.trans hl, by rw [← rd.seq]; exact re.seq,
      by rw [re.mon, rd.mon], fun c m ha hb => ?_, fun hw => ?_, fun ho => ?_⟩
    · exact State.lineReactions_outcome (by rw [rd.seq]; exact ha) (by rw [rd.seq]; exact hb)
    · have h := hx.stoppedBy
      rwa [State.readiedAxis_cold _ _ hw] at h
    · have h := hx.stoppedBy
      have off : (s.readiedAxis n x).state = .off := ax.2.2.2.trans ho
      unfold AxisUnit.stoppedBy at h
      rw [off] at h
      exact h
  · have hr : s2.readLine = s2 := by
      rw [State.readLine, if_neg]
      rw [rd.mode, loadedBad g]; simp
    rw [State.readChain_closed (rd.chainOpen.trans hc), hr]
    exact ⟨rd.line.trans hl, rd.seq, rd.mon, rd.outcome⟩

end Sys2Proof.Machine
end

-- ==== Proofs: what an axis under way keeps through the reports of a tick ====
section
/-! SUPPORT. Reports, stops, requests and the sequencer's phases leave the motion of an axis that moves under the profile as the
tick computed it: they may change its mode, its stop order and its waiting request, but not P, F, V or the speed reference. -/

namespace Sys2Proof.Machine

/-! ## Riding on -/

/-- The states in which an axis moves under the profile with no hold running. -/
def AxisState.Moving (st : AxisState) : Prop := st = .tracking false ∨ ∃ k, st = .stopping k

/-- An axis that moves goes on moving, at the same place, velocity and speed reference. -/
def AxisUnit.Rides (a b : AxisUnit) : Prop :=
  a.state.Moving → b.state.Moving ∧ b.v = a.v ∧ b.tickV = a.tickV ∧ b.p = a.p ∧ b.f = a.f ∧ b.speedRef = a.speedRef

theorem AxisUnit.Rides.refl (a : AxisUnit) : a.Rides a := fun h => ⟨h, rfl, rfl, rfl, rfl, rfl⟩

theorem AxisUnit.Rides.trans {a b c : AxisUnit} (h : a.Rides b) (k : b.Rides c) : a.Rides c := by
  intro m
  obtain ⟨hm, h1, h2, h3, h4, h5⟩ := h m
  obtain ⟨km, k1, k2, k3, k4, k5⟩ := k hm
  exact ⟨km, k1.trans h1, k2.trans h2, k3.trans h3, k4.trans h4, k5.trans h5⟩

/-- A change that leaves the motion and the axis state alone. -/
theorem AxisUnit.Rides.aside {a b : AxisUnit} (st : b.state = a.state) (v : b.v = a.v) (t : b.tickV = a.tickV)
    (p : b.p = a.p) (f : b.f = a.f) (r : b.speedRef = a.speedRef) : a.Rides b :=
  fun m => ⟨by rw [st]; exact m, v, t, p, f, r⟩

theorem AxisUnit.Rides.of_not_moving {a : AxisUnit} (h : ¬ a.state.Moving) (b : AxisUnit) : a.Rides b :=
  fun m => absurd m h

theorem AxisUnit.LegEnds.rides {a b : AxisUnit} (h : a.LegEnds b) : a.Rides b := by
  rw [h.1]; exact .aside rfl rfl rfl rfl rfl rfl

theorem AxisUnit.halted_rides (n : Nat) (k : StopKind) (a : AxisUnit) : a.Rides (a.halted n k) := by
  rintro (h | ⟨j, h⟩)
  · have e : a.halted n k = { a.enter (.stopping k) none with mode := none, requester := none } := by
      simp [AxisUnit.halted, h]
    rw [e]
    exact ⟨.inr ⟨k, rfl⟩, rfl, rfl, rfl, rfl, rfl⟩
  · have e : a.halted n k = { a with state := .stopping (j.meet k), pending := none } := by
      simp [AxisUnit.halted, h]
    rw [e]
    exact ⟨.inr ⟨_, rfl⟩, rfl, rfl, rfl, rfl, rfl⟩

theorem AxisUnit.HaltedTo.rides {n : Nat} {k : StopKind} {a b : AxisUnit} (h : a.HaltedTo n k b) : a.Rides b := by
  rw [h.eq]
  exact (a.halted_rides n k).trans (.aside rfl rfl rfl rfl rfl rfl)

theorem AxisUnit.takeGoal_rides (a : AxisUnit) (r : Request) : a.Rides (a.takeGoal r) :=
  fun _ => ⟨.inl rfl, rfl, rfl, rfl, rfl, rfl⟩

/-- Axis `x` rides on, and the commissioning unit is left alone. -/
structure Rides (x : Axis) (s t : State) : Prop where
  comm : t.comm = s.comm
  axis : (s.axis x).Rides (t.axis x)

theorem Rides.refl (x : Axis) (s : State) : Rides x s s := ⟨rfl, .refl _⟩

theorem Rides.trans {x : Axis} {s t u : State} (h : Rides x s t) (k : Rides x t u) : Rides x s u :=
  ⟨k.comm.trans h.comm, h.axis.trans k.axis⟩

/-- A change elsewhere. -/
theorem Rides.elsewhere {x : Axis} {s t : State} (comm : t.comm = s.comm) (axis : t.axis x = s.axis x) : Rides x s t :=
  ⟨comm, axis ▸ .refl _⟩

/-- One axis changed: the one that rides, or the other. -/
theorem Rides.ofSetAxis {x y : Axis} {s : State} {a : AxisUnit} (h : y = x → (s.axis y).Rides a) :
    Rides x s (s.setAxis y a) := by
  refine ⟨State.setAxis_comm _ _ _, ?_⟩
  by_cases e : y = x
  · subst e; rw [State.setAxis_axis]; exact h rfl
  · rw [State.setAxis_axis_ne _ _ (Ne.symm e)]; exact .refl _

/-- An axis that does not move may change in any way. -/
theorem Rides.ofRest {x y : Axis} {s : State} (a : AxisUnit) (h : y = x → ¬ (s.axis y).state.Moving) :
    Rides x s (s.setAxis y a) := .ofSetAxis fun e => .of_not_moving (h e) a

theorem Tells.rides {x y : Axis} {s t : State} (h : Tells y s t) : Rides x s t := by
  refine ⟨h.frame.comm, ?_⟩
  rcases eq_or_eq_otherAxis y x with rfl | rfl
  · exact h.axis.rides
  · rw [h.other]; exact .refl _

theorem Reacts.rides {k : StopKind} {x : Axis} {s t : State} (h : Reacts k s t) : Rides x s t :=
  ⟨h.frame.comm, (h.axis x).rides⟩

/-! ## Requests -/

section
variable (x : Axis)

theorem Rides.setPending (s : State) (y : Axis) (r : Option Request) :
    Rides x s (s.setAxis y { s.axis y with pending := r }) := .ofSetAxis fun _ => .aside rfl rfl rfl rfl rfl rfl

theorem Rides.setLeg (s : State) (y : Axis) (l : Option Leg) :
    Rides x s (s.setAxis y { s.axis y with leg := l }) := .ofSetAxis fun _ => .aside rfl rfl rfl rfl rfl rfl

theorem Rides.takeGoal (s : State) (y : Axis) (r : Request) : Rides x s (s.setAxis y ((s.axis y).takeGoal r)) :=
  .ofSetAxis fun _ => AxisUnit.takeGoal_rides _ _

theorem State.report_rides (s : State) {k : FaultKind} (f : FaultFields) (hk : k ≠ .duplicateStation) :
    Rides x s (s.report k f) := (s.report_reacts k f hk).rides

theorem State.refuseRequest_rides (s : State) (y : Axis) (q : Requester) : Rides x s (s.refuseRequest y q) := by
  cases q
  · exact s.report_rides x _ (by decide)
  · exact (s.tellStopped_tells y (some .enableMonitor)).rides
  · exact (s.tellStopped_tells y (some .positionUnit)).rides

theorem AxisState.starting_not_moving (l : StartLeg) : ¬ (AxisState.starting l).Moving := by
  rintro (h | ⟨k, h⟩) <;> cases h

theorem AxisState.off_not_moving : ¬ AxisState.off.Moving := by rintro (h | ⟨k, h⟩) <;> cases h

theorem AxisState.hold_not_moving : ¬ (AxisState.tracking true).Moving := by rintro (h | ⟨k, h⟩) <;> cases h

theorem State.releaseExpired_rides (s : State) (y : Axis) (h : y = x → ¬ (s.axis y).state.Moving) :
    Rides x s (s.releaseExpired y) := by
  unfold State.releaseExpired
  simp only
  split
  · exact .ofRest _ h
  · split
    · exact (Rides.ofRest _ h).trans (State.refuseRequest_rides x _ _ _)
    · exact .ofRest _ h

theorem State.readyTaken_rides (s : State) (y : Axis) (h : y = x → ¬ (s.axis y).state.Moving) :
    Rides x s (s.readyTaken y) := by
  unfold State.readyTaken
  simp only
  split
  · refine (Rides.ofRest _ h).trans (State.releaseExpired_rides x _ y fun _ => ?_)
    rw [State.setAxis_axis]; exact AxisState.starting_not_moving _
  · exact .ofRest _ h

theorem State.startUp_rides (s : State) (y : Axis) (r : Request) (h : y = x → ¬ (s.axis y).state.Moving) :
    Rides x s (s.startUp y r) := by
  unfold State.startUp
  simp only
  split
  · refine (Rides.ofRest _ h).trans (State.readyTaken_rides x _ y fun _ => ?_)
    rw [State.setAxis_axis]; exact AxisState.starting_not_moving _
  · exact .ofRest _ h

theorem State.placeRequest_rides (s : State) (y : Axis) (r : Request) : Rides x s (s.placeRequest y r) := by
  have waits := Rides.setPending x s y (some r)
  unfold State.placeRequest
  simp only
  split
  · next h =>
    split
    · exact .refl x s
    · exact State.startUp_rides x s y r fun _ => by rw [h]; exact AxisState.off_not_moving
  · exact waits
  · exact .takeGoal x s y r
  · exact waits
  · exact waits
  · exact (s.tellStopped_tells y _).rides

theorem State.request_rides (s : State) (y : Axis) (r : Request) : Rides x s (s.request y r) := by
  have n : Rides x s (s.noticed y r.goal) :=
    .elsewhere (by rw [State.noticed_eq]) (s.noticed_axis y x r.goal)
  rw [State.request_eq]
  split
  · exact n.trans (State.refuseRequest_rides x _ _ _)
  · exact n.trans (State.placeRequest_rides x _ _ _)

/-! ## The post-motion sequence -/

theorem State.takeAtOff_rides (s : State) (y : Axis) : Rides x s (s.takeAtOff y) := by
  unfold State.takeAtOff
  simp only
  split
  · exact (Rides.setPending x s y none).trans (State.request_rides x _ _ _)
  · exact .refl x s

theorem State.zeroHold_rides (s : State) (y : Axis) : Rides x s (s.zeroHold y) := by
  unfold State.zeroHold State.holdExpired
  split
  · next h =>
    refine (Rides.ofRest _ fun _ => ?_).trans (State.takeAtOff_rides x _ y)
    rw [h.1]; exact AxisState.hold_not_moving
  · exact .refl x s

theorem State.takeAtStopEnd_rides (s : State) (y : Axis) : Rides x s (s.takeAtStopEnd y) := by
  unfold State.takeAtStopEnd
  simp only
  split
  · split
    · exact (Rides.setPending x s y none).trans (State.refuseRequest_rides x _ _ _)
    · exact .takeGoal x s y _
  · exact .refl x s

theorem State.postMotion_rides (s : State) (y : Axis) (t : TurnReport) : Rides x s (s.postMotion y t) := by
  unfold State.postMotion
  simp only
  split <;> split
  · exact (State.takeAtStopEnd_rides x _ _).trans (State.zeroHold_rides x _ _)
  · exact State.zeroHold_rides x _ _
  · exact State.takeAtStopEnd_rides x _ _
  · exact .refl x s

/-! ## The sequencer -/

theorem Frame.elsewhere {x : Axis} {s t : State} (f : Frame s t) (slew : t.slew = s.slew) (rake : t.rake = s.rake) :
    Rides x s t := .elsewhere f.comm (by cases x; exacts [slew, rake])

theorem State.requestStatus_rides (s : State) : Rides x s s.requestStatus := s.requestStatus_frame.elsewhere rfl rfl

theorem Rides.ofSeqPeers (s : State) (q : Sequencer) (ps : List PeerRecord) :
    Rides x s { s with seq := q, peers := ps } := .elsewhere rfl (by cases x <;> rfl)

theorem State.giveTarget_rides (s : State) (y : Axis) : Rides x s (s.giveTarget y) := by
  unfold State.giveTarget
  split
  · split
    · exact (Rides.ofSeqPeers x s _ s.peers).trans (State.request_rides x _ _ _)
    · exact .refl x s
  · exact .refl x s

theorem State.startMoving_rides (s : State) : Rides x s s.startMoving := by
  have k : Rides x s (({ s with seq := { s.seq with phase := .moving } } : State).requestStatus) :=
    (Rides.ofSeqPeers x s _ s.peers).trans (State.requestStatus_rides x _)
  unfold State.startMoving
  simp only
  generalize ({ s with seq := { s.seq with phase := .moving } } : State).requestStatus = s1 at k
  split
  · exact k
  · exact k.trans (State.giveTarget_rides x _ _)
  · exact k.trans (State.giveTarget_rides x _ _)
  · split
    · exact k.trans ((State.giveTarget_rides x _ _).trans (State.giveTarget_rides x _ _))
    · exact k.trans ((Rides.ofSeqPeers x _ _ _).trans (State.giveTarget_rides x _ _))
    · exact k.trans ((Rides.ofSeqPeers x _ _ _).trans (State.giveTarget_rides x _ _))

theorem State.startStep_rides (s : State) (k : Nat) : Rides x s (s.startStep k) :=
  ((Rides.ofSeqPeers x s _ s.peers).trans (.ofSeqPeers x _ _ _)).trans (State.requestStatus_rides x _)

theorem State.finishStep_rides (s : State) : Rides x s s.finishStep := by
  unfold State.finishStep
  split
  · exact (State.startStep_rides x _ _).trans (.ofSeqPeers x _ _ _)
  · exact (Rides.ofSeqPeers x s _ _).trans (State.requestStatus_rides x _)

theorem State.advance_rides (n : Nat) (s : State) : Rides x s (State.advance n s) := by
  induction n generalizing s with
  | zero => exact .refl x s
  | succ n ih =>
    unfold State.advance
    split
    · split
      · split
        · exact (State.startMoving_rides x s).trans (ih _)
        · exact .refl x s
      · split
        · exact ((Rides.ofSeqPeers x s _ s.peers).trans (State.requestStatus_rides x _)).trans (ih _)
        · exact .refl x s
      · split
        · exact (State.finishStep_rides x s).trans (ih _)
        · exact .refl x s
      · exact .refl x s
      · exact .refl x s
    · exact .refl x s

theorem State.seqArrived_rides (s : State) (y : Axis) : Rides x s (s.seqArrived y) := by
  unfold State.seqArrived
  split
  · simp only
    refine Rides.trans ?_ (State.advance_rides x _ _)
    split
    · exact (Rides.ofSeqPeers x s _ s.peers).trans (State.giveTarget_rides x _ _)
    · exact .ofSeqPeers x s _ s.peers
  · exact .refl x s

/-! ## Deliveries -/

theorem State.zeroVelocity_rides (s : State) (y : Axis) : Rides x s (s.zeroVelocity y) := by
  unfold State.zeroVelocity
  split
  · exact (Rides.setLeg x s y _).trans (State.request_rides x _ _ _)
  · exact (Rides.setLeg x s y _).trans (State.request_rides x _ _ _)
  · exact .refl x s

theorem State.arrived_rides (s : State) (y : Axis) (q : Option Requester) : Rides x s (s.arrived y q) := by
  have ends : Rides x s { s with mon := { s.mon with run := .none } } := .elsewhere rfl (by cases x <;> rfl)
  unfold State.arrived
  split
  · exact State.seqArrived_rides x s y
  · split
    · split
      · exact ends
      · exact .refl x s
    · exact .refl x s
  · exact .refl x s
  · exact .refl x s

theorem State.deliver_rides (s : State) (y : Axis) (t : TurnReport) : Rides x s (s.deliver y t) := by
  have k := State.arrived_rides x s y t.arrival
  unfold State.deliver
  simp only
  split <;> split
  · exact (k.trans (State.zeroVelocity_rides x _ _)).trans (State.stopEnded_tells _ y).rides
  · exact k.trans (State.stopEnded_tells _ y).rides
  · exact k.trans (State.zeroVelocity_rides x _ _)
  · exact k

theorem State.reportTurn_rides (s : State) (y : Axis) (t : TurnReport) : Rides x s (s.reportTurn y t) := by
  unfold State.reportTurn
  simp only
  split <;> split
  · exact (State.report_rides x s _ (by decide)).trans (State.report_rides x _ _ (by decide))
  · exact State.report_rides x s _ (by decide)
  · exact State.report_rides x s _ (by decide)
  · exact .refl x s

theorem State.zoneTick_rides (s b : State) : Rides x s (s.zoneTick b) := by
  have rows (t : State) (z : ZoneGuard) : Rides x t { t with zones := z } := .elsewhere rfl (by cases x <;> rfl)
  unfold State.zoneTick State.announce
  have k := (rows s { s.zones with rows := s.zones.rows.map s.tickRow }).trans
    ((State.select_eq _ ▸ rows _ _ : Rides x _ (State.select _)).trans
      (State.judgeZoneWait_eq _ ▸ rows _ _ : Rides x _ (State.judgeZoneWait _)))
  split
  · exact k
  · exact k.trans (State.requestStatus_rides x _)

/-- An axis that the turns of a tick leave moving rides through all that the tick does after them. -/
theorem State.afterTurns_rides (s b : State) (r w : TurnReport) :
    Rides x s ((((((((s.zoneTick b).reportTurn .rake r).reportTurn .slew w).postMotion .rake r).postMotion .slew w).deliver
      .rake r).deliver .slew w)) :=
  (((((((State.zoneTick_rides x s b).trans (State.reportTurn_rides x _ _ _)).trans (State.reportTurn_rides x _ _ _)).trans
    (State.postMotion_rides x _ _ _)).trans (State.postMotion_rides x _ _ _)).trans (State.deliver_rides x _ _ _)).trans
    (State.deliver_rides x _ _ _))

end

end Sys2Proof.Machine
end

-- ==== Proofs: the turn of a moving axis ====
section
/-! SUPPORT. The turn of an axis under way (R24 to R33): the velocity it takes, the advance by it, and what the whole tick leaves
of it; and the tick of a station without zones whose other axis is at rest. -/

namespace Sys2Proof.Machine

/-! ## Candidates (R25, R29 to R31) -/

theorem positionCandidate_eq (p : AxisParams) (d v : Int) (vseg : Nat) :
    positionCandidate p d v vseg = tableCandidate p.a p.vcreep vseg d v := by
  have hb : brakeDistance p.a v.natAbs = v.natAbs ^ 2 / (2 * p.a * 65536) := by rw [brakeDistance, sq]
  unfold positionCandidate tableCandidate
  rw [hb]
  split
  · rfl
  · split
    · rfl
    · unfold towardSeg
      split
      · rfl
      · split <;> rfl

/-! ## The advance (R26) -/

/-- The advance by a velocity that stays in the position range and does not arrive. -/
def AxisUnit.advanced (a : AxisUnit) (v : Int) : Advance where
  p := (a.p * 65536 + a.f + v) / 65536
  f := (a.p * 65536 + a.f + v) % 65536
  v := v
  arrived := false

/-- The place that an advance reaches lies in the position range. -/
def AxisUnit.InRange (a : AxisUnit) (v : Int) : Prop :=
  posMin ≤ (a.p * 65536 + a.f + v) / 65536 ∧ (a.p * 65536 + a.f + v) / 65536 ≤ posMax

theorem AxisUnit.splitPosition_inRange {a : AxisUnit} {v : Int} (h : a.InRange v) :
    splitPosition (a.p * 65536 + a.f + v) v = a.advanced v := by
  unfold splitPosition AxisUnit.advanced
  rw [if_neg (by exact not_lt.mpr h.2), if_neg (by exact not_lt.mpr h.1), Int.emod_def, Int.mul_comm 65536]

theorem AxisUnit.advanceBy_free {a : AxisUnit} {v : Int} (h : a.InRange v) (m : ∀ t g, a.mode ≠ some (.position t g)) :
    a.advanceBy v = a.advanced v := by
  unfold AxisUnit.advanceBy
  simp only
  exact AxisUnit.splitPosition_inRange h

theorem AxisUnit.advanceBy_underway {a : AxisUnit} {v t : Int} {g : Nat} (h : a.InRange v)
    (m : a.mode = some (.position t g))
    (n : t - a.p ≠ 0 → 0 < (t * 65536 - (a.p * 65536 + a.f + v)) * (t - a.p).sign) : a.advanceBy v = a.advanced v := by
  unfold AxisUnit.advanceBy
  simp only [m]
  rw [if_neg, AxisUnit.splitPosition_inRange h]
  rintro ⟨hs, hle⟩
  have := n (by rwa [Ne, Int.sign_eq_zero_iff_zero] at hs)
  omega

theorem AxisUnit.advanceBy_arrives {a : AxisUnit} {v t : Int} {g : Nat} (m : a.mode = some (.position t g)) (n : t ≠ a.p)
    (h : (t * 65536 - (a.p * 65536 + a.f + v)) * (t - a.p).sign ≤ 0) :
    a.advanceBy v = { p := t, f := 0, v := 0, arrived := true } := by
  unfold AxisUnit.advanceBy
  simp only [m]
  rw [if_pos ⟨by rw [Ne, Int.sign_eq_zero_iff_zero]; omega, h⟩]

/-! ## Turns -/

/-- An axis at rest stands on its count (R36, R53). -/
theorem AxisUnit.turn_atRest {a : AxisUnit} (h : a.atRest = true) (par : AxisParams) (f : Advance → Bool)
    (z : Advance → Option Nat) : a.turn par f z = (a.restTurn, .quiet, none) := by
  unfold AxisUnit.atRest at h
  rcases of_decide_eq_true h with e | e <;> simp only [AxisUnit.turn, e]

/-- The option taken: the candidate where it passes, and otherwise the braking option (R66, R69). -/
theorem AxisUnit.choose_taken (par : AxisParams) (a : AxisUnit) (f : Advance → Bool) :
    (a.choose par f).taken =
      if f (a.advanceBy (a.candidate par)) then a.advanceBy (a.candidate par) else a.advanceBy (a.brakingOption par) := by
  unfold AxisUnit.choose
  simp only
  split
  · rfl
  · split
    · next e => exact congrArg a.advanceBy e
    · rfl

theorem AxisUnit.choose_free {par : AxisParams} {a : AxisUnit} {f : Advance → Bool} (h : ∀ d, f d = true) :
    a.choose par f = { taken := a.advanceBy (a.candidate par), refused := none, failed := false } := by
  simp [AxisUnit.choose, h]

/-- A turn in TRACKING whose move is not complete at its start. -/
theorem AxisUnit.turn_tracking {a : AxisUnit} {b : Bool} {par : AxisParams} (f : Advance → Bool) (z : Advance → Option Nat)
    (h : a.state = .tracking b) (c : a.complete par = false) :
    a.turn par f z = (a.finishTurn par (a.choose par f).taken (a.choose par f).taken.arrived,
      a.turnReport par (a.choose par f).taken (a.choose par f).taken.arrived (a.choose par f).failed
        (z (a.choose par f).taken), (a.choose par f).refused) := by
  simp [AxisUnit.turn, h, c]

theorem AxisUnit.turn_stopping {a : AxisUnit} {k : StopKind} {par : AxisParams} (f : Advance → Bool)
    (z : Advance → Option Nat) (h : a.state = .stopping k) :
    a.turn par f z = (a.finishTurn par (a.choose par f).taken false,
      a.turnReport par (a.choose par f).taken false (a.choose par f).failed (z (a.choose par f).taken),
      (a.choose par f).refused) := by
  simp [AxisUnit.turn, h]

/-! ## An axis moved -/

/-- The axis stands where the advance by `v` leaves it, with the speed reference of R33. -/
def AxisUnit.MovedBy (par : AxisParams) (a : AxisUnit) (v : Int) (b : AxisUnit) : Prop :=
  b.v = v ∧ b.tickV = v ∧ b.p = (a.advanced v).p ∧ b.f = (a.advanced v).f ∧
    b.speedRef = speedReference par (a.advanced v).p a.e v

theorem AxisUnit.Rides.movedBy {par : AxisParams} {a b c : AxisUnit} {v : Int} (h : b.Rides c) (m : b.state.Moving)
    (k : a.MovedBy par v b) : a.MovedBy par v c := by
  obtain ⟨-, h1, h2, h3, h4, h5⟩ := h m
  obtain ⟨k1, k2, k3, k4, k5⟩ := k
  exact ⟨h1.trans k1, h2.trans k2, h3.trans k3, h4.trans k4, h5.trans k5⟩

/-- A turn in TRACKING that does not complete its move leaves the axis moving, and drops a brake at V = 0 alone (R30). -/
theorem AxisUnit.finishTurn_tracking {a : AxisUnit} (par : AxisParams) (v : Int) (h : a.state = .tracking false) :
    (a.finishTurn par (a.advanced v) false).state = .tracking false ∧
      a.MovedBy par v (a.finishTurn par (a.advanced v) false) ∧
      ((∀ k, a.mode = some (.brake k) → v ≠ 0) → (a.finishTurn par (a.advanced v) false).mode = a.mode) := by
  unfold AxisUnit.finishTurn
  simp only [h, Bool.false_eq_true, if_false]
  split
  · next k hk =>
    split
    · next hv => exact ⟨rfl, ⟨rfl, rfl, rfl, rfl, rfl⟩, fun e => absurd hv (e k hk)⟩
    · exact ⟨rfl, ⟨rfl, rfl, rfl, rfl, rfl⟩, fun _ => rfl⟩
  · exact ⟨rfl, ⟨rfl, rfl, rfl, rfl, rfl⟩, fun _ => rfl⟩

theorem AxisUnit.finishTurn_stopping {a : AxisUnit} {k : StopKind} (par : AxisParams) {v : Int}
    (h : a.state = .stopping k) (hv : v ≠ 0) :
    (a.finishTurn par (a.advanced v) false).state = .stopping k ∧
      a.MovedBy par v (a.finishTurn par (a.advanced v) false) := by
  have e : (a.advanced v).v ≠ 0 := hv
  unfold AxisUnit.finishTurn
  simp only [h, e, if_false]
  exact ⟨trivial, rfl, rfl, rfl, rfl, rfl⟩

/-! ## The turn in its tick -/

/-- An axis's turn as the tick makes it, the slew's after the rake's (R20, R65). -/
def State.tickTurn (s : State) : Axis → AxisUnit × TurnReport × Option Advance
  | .rake => s.rake.turn (s.params .rake) (fun adv => rakePasses s.ceilingLimit (s.rakeHiOf adv))
      (fun _ => s.ceilingLimit.map (·.2))
  | .slew => s.slew.turn (s.params .slew) (fun adv => slewPasses s.zones.rows s.tickRake.1.env.rakeHi (s.slewRangeOf adv))
      (fun adv => slewBreachZone s.zones.rows s.tickRake.1.env.rakeHi (s.slewRangeOf adv))

/-- What the tick leaves of an axis whose turn leaves it moving. -/
theorem State.profileTick_moved {s : State} {x : Axis} {par : AxisParams} {v : Int}
    (m : (s.tickTurn x).1.state.Moving) (k : (s.axis x).MovedBy par v (s.tickTurn x).1) :
    (s.axis x).MovedBy par v (s.profileTick.axis x) ∧ (s.profileTick.axis x).e = (s.axis x).e ∧
      s.profileTick.nv = s.nv ∧ s.profileTick.comm = s.comm := by
  obtain ⟨u, calm, hu, -⟩ := s.profileTick_calm
  have rides : ∀ (w : State) (r q : TurnReport), w.axis x = (s.tickTurn x).1 → w.comm = s.comm →
      s.profileTick = ((((((((w.zoneTick s).reportTurn .rake r).reportTurn .slew q).postMotion .rake r).postMotion .slew
        q).deliver .rake r).deliver .slew q)) →
      (s.axis x).MovedBy par v (s.profileTick.axis x) ∧ s.profileTick.comm = s.comm := by
    intro w r q hw hc e
    have h := State.afterTurns_rides x w s r q
    rw [e]
    refine ⟨AxisUnit.Rides.movedBy h.axis (by rw [hw]; exact m) (by rw [hw]; exact k), h.comm.trans hc⟩
  have h := rides ({ s with tickLeft := Config.tickPeriod } : State).tickRake.1.tickSlew.1 _ _
    (by cases x <;> rfl) rfl rfl
  refine ⟨h.1, ?_, ?_, h.2⟩
  · rw [hu, (calm.axis x).same.e]; cases x <;> rfl
  · rw [hu, calm.nv]

/-- In a station without zones every option passes (R67, R68). -/
theorem State.tickTurn_free {s : State} (h : s.zones.rows = []) (x : Axis) :
    ∃ f z, (∀ d, f d = true) ∧ s.tickTurn x = (s.axis x).turn (s.params x) f z := by
  cases x
  · exact ⟨fun d => slewPasses s.zones.rows s.tickRake.1.env.rakeHi (s.slewRangeOf d),
      fun d => slewBreachZone s.zones.rows s.tickRake.1.env.rakeHi (s.slewRangeOf d), fun d => by simp [h, slewPasses], rfl⟩
  · exact ⟨fun d => rakePasses s.ceilingLimit (s.rakeHiOf d), fun _ => s.ceilingLimit.map (·.2),
      fun d => by simp [State.ceilingLimit, h, rakePasses], rfl⟩

/-! ## Ceilings (R64, R68) -/

/-- The lowest of the ceilings met so far and of those to come. -/
theorem foldl_lowerCeiling_passes (rows : List GuardRow) (best : Option (Int × Nat)) (hi : Int) :
    rakePasses (rows.foldl lowerCeiling best) hi = true ↔
      rakePasses best hi = true ∧ ∀ c ∈ rows.filterMap (·.zone.ceiling), hi ≤ c := by
  induction rows generalizing best with
  | nil => simp
  | cons r rs ih =>
    rw [List.foldl_cons, ih]
    rcases hc : r.zone.ceiling with _ | c
    · simp [lowerCeiling, hc]
    · rw [List.filterMap_cons_some (f := fun g : GuardRow => g.zone.ceiling) hc, List.forall_mem_cons, ← and_assoc]
      refine and_congr_left fun _ => ?_
      rcases best with _ | ⟨b, n⟩
      · simp [lowerCeiling, hc, rakePasses]
      · by_cases lt : c < b <;> simp only [lowerCeiling, hc, lt, if_true, if_false, rakePasses, decide_eq_true_eq] <;> omega

/-- R68: the rake passes exactly under every ceiling that the slew's current envelope touches. -/
theorem State.rakePasses_iff (s : State) (hi : Int) :
    rakePasses s.ceilingLimit hi = true ↔ ∀ c ∈ s.zones.rows.filterMap (fun g =>
      if s.env.slew.lo ≤ g.zone.hi ∧ g.zone.lo ≤ s.env.slew.hi then g.zone.ceiling else none), hi ≤ c := by
  unfold State.ceilingLimit
  rw [foldl_lowerCeiling_passes, List.filterMap_filter]
  simp only [rakePasses, Range.touches, decide_eq_true_eq, true_and]

/-! ## A tick with the other axis at rest -/

/-- The state after both turns and the zone guard's event, in a station without zones whose other axis is at rest. -/
structure Turned (x : Axis) (s u : State) : Prop where
  axis : u.axis x = (s.tickTurn x).1
  other : u.axis (otherAxis x) = (s.axis (otherAxis x)).restTurn
  nv : u.nv = s.nv
  comm : u.comm = s.comm
  seq : u.seq = s.seq
  mon : u.mon = s.mon
  fault : u.fault = s.fault

theorem State.zoneTick_noZones {s b : State} (hs : s.zones.rows = []) (hb : b.zones.rows = []) :
    ∃ z, s.zoneTick b = { s with zones := z } := by
  have hz : s.zones = { rows := [], waitElapsed := s.zones.waitElapsed } := by rw [← hs]
  have hsel : ({ s with zones := { s.zones with rows := s.zones.rows.map s.tickRow } } : State).select =
      { s with zones := { s.zones with rows := [] } } := by
    rw [hs]
    unfold State.select State.chosen
    split <;> simp [leastIndex]
  unfold State.zoneTick
  rw [hsel]
  generalize hj : ({ s with zones := { s.zones with rows := [] } } : State).judgeZoneWait = j
  have hrows : j.zones.rows = [] := by rw [← hj, (State.judgeZoneWait_frame _).rows]
  have hje : j = { s with zones := j.zones } := by
    rw [← hj, State.judgeZoneWait_eq]
  refine ⟨j.zones, ?_⟩
  rw [State.announce, if_pos (by simp [State.advertised, hrows, hb])]
  exact hje

/-- The tick delivers the moving axis's own reports alone. -/
theorem State.profileTick_solo {s : State} (x : Axis) (hz : s.zones.rows = [])
    (ho : (s.axis (otherAxis x)).atRest = true) :
    ∃ u, Turned x s u ∧ s.profileTick =
      ((u.reportTurn x (s.tickTurn x).2.1).postMotion x (s.tickTurn x).2.1).deliver x (s.tickTurn x).2.1 := by
  generalize hw : ({ s with tickLeft := Config.tickPeriod } : State).tickRake.1.tickSlew.1 = w
  have hwz : w.zones.rows = [] := by rw [← hw]; exact hz
  obtain ⟨z, hzt⟩ := State.zoneTick_noZones hwz hz
  refine ⟨{ w with zones := z }, ?_, ?_⟩
  · subst hw
    cases x
    · exact ⟨rfl, congrArg Prod.fst (AxisUnit.turn_atRest ho _ _ _), rfl, rfl, rfl, rfl, rfl⟩
    · exact ⟨rfl, congrArg Prod.fst (AxisUnit.turn_atRest ho _ _ _), rfl, rfl, rfl, rfl, rfl⟩
  · have e : s.profileTick = ((((((((w.zoneTick s).reportTurn .rake (s.tickTurn .rake).2.1).reportTurn .slew
        (s.tickTurn .slew).2.1).postMotion .rake (s.tickTurn .rake).2.1).postMotion .slew (s.tickTurn .slew).2.1).deliver
        .rake (s.tickTurn .rake).2.1).deliver .slew (s.tickTurn .slew).2.1)) := by rw [← hw]; rfl
    have q : (s.tickTurn (otherAxis x)).2.1 = .quiet := by
      cases x
      · exact congrArg (·.2.1) (AxisUnit.turn_atRest ho _ _ _)
      · exact congrArg (·.2.1) (AxisUnit.turn_atRest ho _ _ _)
    rw [e, hzt]
    cases x
    · rw [show (s.tickTurn .rake).2.1 = .quiet from q]; rfl
    · rw [show (s.tickTurn .slew).2.1 = .quiet from q]; rfl

end Sys2Proof.Machine
end

-- ==== Proofs: the tick of an axis under way ====
section
/-! SUPPORT. The profile tick of an axis that moves on: its turn, what it reports, and what is delivered (R25 to R33, R68). -/

namespace Sys2Proof.Machine

theorem State.params_of_record {s : State} {r : Record} (h : s.comm.record = some r) (x : Axis) : s.params x = r.axis x := by
  simp [State.params, h]

theorem exec_profileTick {s : State} (h : s.inReset = false) : exec .profileTick s = .next s.profileTick :=
  live_of_not_inReset State.profileTick h

/-! ## The turn of an axis that moves on -/

/-- The axis is under way at `v`: it runs in TRACKING, or in STOPPING short of V = 0. -/
def AxisUnit.UnderWay (a : AxisUnit) (v : Int) : Prop := a.state = .tracking false ∨ (∃ k, a.state = .stopping k) ∧ v ≠ 0

theorem AxisUnit.finishTurn_underWay {a : AxisUnit} (par : AxisParams) {v : Int} (h : a.UnderWay v) :
    (a.finishTurn par (a.advanced v) false).state = a.state ∧ a.state.Moving ∧
      a.MovedBy par v (a.finishTurn par (a.advanced v) false) := by
  rcases h with h | ⟨⟨k, h⟩, hv⟩
  · obtain ⟨st, by_, -⟩ := AxisUnit.finishTurn_tracking par v h
    exact ⟨st.trans h.symm, .inl h, by_⟩
  · obtain ⟨st, by_⟩ := AxisUnit.finishTurn_stopping par h hv
    exact ⟨st.trans h.symm, .inr ⟨k, h⟩, by_⟩

/-- A turn whose option passes and that does not complete its move. -/
theorem AxisUnit.turn_underWay {a : AxisUnit} {par : AxisParams} {v : Int} {f : Advance → Bool} (z : Advance → Option Nat)
    (h : a.UnderWay v) (c : a.complete par = false) (taken : (a.choose par f).taken = a.advanced v) :
    (a.turn par f z).1 = a.finishTurn par (a.advanced v) false ∧
      (a.turn par f z).2.1 = a.turnReport par (a.advanced v) false (a.choose par f).failed (z (a.advanced v)) := by
  rcases h with h | ⟨⟨k, h⟩, -⟩
  · rw [AxisUnit.turn_tracking f z h c, taken]; exact ⟨rfl, rfl⟩
  · rw [AxisUnit.turn_stopping f z h, taken]; exact ⟨rfl, rfl⟩

/-- In a station without zones an axis takes its candidate. -/
theorem State.tickTurn_underWay {s : State} {x : Axis} {v : Int} (zones : s.zones.rows = []) (h : (s.axis x).UnderWay v)
    (c : (s.axis x).complete (s.params x) = false) (hv : (s.axis x).candidate (s.params x) = v)
    (ha : (s.axis x).advanceBy v = (s.axis x).advanced v) :
    ∃ z, (s.tickTurn x).1 = (s.axis x).finishTurn (s.params x) ((s.axis x).advanced v) false ∧
      (s.tickTurn x).2.1 = (s.axis x).turnReport (s.params x) ((s.axis x).advanced v) false false z := by
  obtain ⟨f, z, free, e⟩ := State.tickTurn_free zones x
  have chosen := AxisUnit.choose_free (par := s.params x) (a := s.axis x) free
  rw [hv, ha] at chosen
  have k := AxisUnit.turn_underWay z h c (congrArg Choice.taken chosen)
  rw [chosen] at k
  exact ⟨_, by rw [e]; exact k.1, by rw [e]; exact k.2⟩

/-- What the tick leaves of the axis, whatever else it brings about. -/
theorem State.profileTick_underWay {s : State} {x : Axis} {v : Int} (h : (s.axis x).UnderWay v)
    (k : (s.tickTurn x).1 = (s.axis x).finishTurn (s.params x) ((s.axis x).advanced v) false) :
    (s.axis x).MovedBy (s.params x) v (s.profileTick.axis x) ∧ (s.profileTick.axis x).e = (s.axis x).e ∧
      s.profileTick.nv = s.nv ∧ s.profileTick.comm = s.comm := by
  obtain ⟨st, m, by_⟩ := AxisUnit.finishTurn_underWay (s.params x) h
  exact State.profileTick_moved (by rw [k, st]; exact m) (by rw [k]; exact by_)

/-! ## What is delivered when nothing else happens -/

/-- A turn within the following limit reports a zero velocity alone. -/
theorem AxisUnit.turnReport_underWay {a : AxisUnit} {par : AxisParams} {v : Int} (z : Option Nat) (h : a.UnderWay v)
    (near : ((a.advanced v).p - a.e).natAbs ≤ par.followLimit) :
    a.turnReport par (a.advanced v) false false z =
      { TurnReport.quiet with zeroVelocity := (a.turnReport par (a.advanced v) false false z).zeroVelocity } := by
  have f : followingError par (a.advanced v).p a.e = false := decide_eq_false (by omega)
  rcases h with h | ⟨⟨k, h⟩, hv⟩
  · simp [AxisUnit.turnReport, h, f, TurnReport.quiet]
  · have e : (a.advanced v).v ≠ 0 := hv
    simp [AxisUnit.turnReport, h, f, e, TurnReport.quiet]

/-- Only a brake that reaches V = 0 reports it, to the block that asked for it (R30). -/
theorem AxisUnit.turnReport_zeroVelocity {a : AxisUnit} (par : AxisParams) (v : Int) (z : Option Nat)
    (h : ∀ k, a.mode = some (.brake k) → v ≠ 0) : (a.turnReport par (a.advanced v) false false z).zeroVelocity = none := by
  unfold AxisUnit.turnReport
  simp only
  split
  · next k _ hk => exact if_neg (h k hk)
  · rfl

/-- The tick of an axis under way with the other axis at rest: the turned state, with the zero velocity told. -/
theorem State.profileTick_calmly {s : State} {x : Axis} {v : Int} {z : Option Nat} (zones : s.zones.rows = [])
    (other : (s.axis (otherAxis x)).atRest = true) (h : (s.axis x).UnderWay v)
    (near : (((s.axis x).advanced v).p - (s.axis x).e).natAbs ≤ (s.params x).followLimit)
    (k : (s.tickTurn x).2.1 = (s.axis x).turnReport (s.params x) ((s.axis x).advanced v) false false z) :
    ∃ u, Turned x s u ∧ s.profileTick =
      if ((s.axis x).turnReport (s.params x) ((s.axis x).advanced v) false false z).zeroVelocity = some .positionUnit then
        u.zeroVelocity x else u := by
  obtain ⟨u, turned, e⟩ := State.profileTick_solo x zones other
  refine ⟨u, turned, ?_⟩
  rw [e, k, AxisUnit.turnReport_underWay z h near]
  rfl

/-! ## The zero velocity of a brake (R14, R15) -/

/-- A request of the position unit's search leaves a running axis running. -/
theorem State.request_keepsTracking {s : State} {x : Axis} (q : Request) (h : (s.axis x).state = .tracking false)
    (by_ : q.asker = .positionUnit) : ((s.request x q).axis x).state = .tracking false := by
  have ha := s.noticed_axis x x q.goal
  rw [State.request_eq]
  split
  · rw [by_]
    have e := (State.tellStopped_tells (s.noticed x q.goal) x (some .positionUnit)).axis.1
    rw [State.refuseRequest, e, ha]
    exact h
  · rw [State.placeRequest_tracking _ ⟨false, ha ▸ h⟩, State.setAxis_axis]
    rfl

theorem State.zeroVelocity_keepsTracking {s : State} {x : Axis} (h : (s.axis x).state = .tracking false) :
    ((s.zeroVelocity x).axis x).state = .tracking false := by
  unfold State.zeroVelocity
  split
  · exact State.request_keepsTracking _ (by rw [State.setAxis_axis]; exact h) rfl
  · exact State.request_keepsTracking _ (by rw [State.setAxis_axis]; exact h) rfl
  · exact h

/-- R14: the reversal's brake at V = 0 turns the search to RETURN, in VELOCITY mode against its first direction. -/
theorem State.zeroVelocity_returns {s : State} {x : Axis} (h : (s.axis x).state = .tracking false)
    (l : (s.axis x).leg = some .reversing) (away : (s.axis x).limit (dirOpposite (s.searchDir x)) = false)
    (free : (s.axis x).negLimit = false ∨ (s.axis x).posLimit = false) :
    ((s.zeroVelocity x).axis x).leg = some .returning ∧
      ((s.zeroVelocity x).axis x).mode =
        some (.velocity (dirOpposite (s.searchDir x)) (clampSpeed (s.params x) (s.params x).vhome)) := by
  simp only [State.zeroVelocity, l]
  rw [State.request_eq, if_neg, State.noticed_velocity, State.placeRequest_tracking _ ⟨false, by simpa using h⟩]
  · simp [AxisUnit.takeGoal, AxisUnit.enter, State.clamped, clampGoal, firstDir_eq]
  · rw [AxisUnit.lockRefuses_iff]
    rintro (⟨hn, hp, -⟩ | ⟨d, hd, hl⟩)
    · simp at hn hp
      rcases free with e | e
      · exact Bool.noConfusion (e.symm.trans hn)
      · exact Bool.noConfusion (e.symm.trans hp)
    · simp [State.clamped, clampGoal, Goal.dir, firstDir_eq] at hd hl
      subst hd
      exact Bool.noConfusion (away.symm.trans hl)

/-! ## The candidate of each mode -/

theorem AxisUnit.candidate_position {a : AxisUnit} {b : Bool} {t : Int} {vseg : Nat} (par : AxisParams)
    (h : a.state = .tracking b) (m : a.mode = some (.position t vseg)) :
    a.candidate par = tableCandidate par.a par.vcreep vseg (t - a.p) a.v := by
  simp only [AxisUnit.candidate, h, m, positionCandidate_eq]

theorem AxisUnit.candidate_velocity {a : AxisUnit} {b : Bool} {d : Dir} {vseg : Nat} (par : AxisParams)
    (h : a.state = .tracking b) (m : a.mode = some (.velocity d vseg)) :
    a.candidate par = velocityCandidate par d a.v vseg := by
  simp only [AxisUnit.candidate, h, m]

theorem AxisUnit.candidate_brake {a : AxisUnit} {b : Bool} {k : BrakeRate} (par : AxisParams)
    (h : a.state = .tracking b) (m : a.mode = some (.brake k)) : a.candidate par = slowBy a.v (k.of par) := by
  simp only [AxisUnit.candidate, h, m]

theorem AxisUnit.candidate_stopping {a : AxisUnit} {k : StopKind} (par : AxisParams) (h : a.state = .stopping k) :
    a.candidate par = slowBy a.v (k.of par) := by
  simp only [AxisUnit.candidate, h]

theorem AxisUnit.brakingOption_velocity {a : AxisUnit} {b : Bool} {d : Dir} {vseg : Nat} (par : AxisParams)
    (h : a.state = .tracking b) (m : a.mode = some (.velocity d vseg)) : a.brakingOption par = slowBy a.v par.a := by
  rw [AxisUnit.brakingOption, AxisUnit.brakingRate, if_neg (by simp [h, m])]

/-- A move is complete at the start of a turn only on its target and slow enough to stand (R27). -/
theorem AxisUnit.complete_position {a : AxisUnit} {t : Int} {vseg : Nat} {par : AxisParams}
    (m : a.mode = some (.position t vseg)) (h : ¬ (t - a.p = 0 ∧ a.v.natAbs ≤ par.a)) : a.complete par = false := by
  simp only [AxisUnit.complete, m, ← Bool.decide_and, h, decide_false]

theorem AxisUnit.complete_untargeted {a : AxisUnit} (par : AxisParams) (m : ∀ t g, a.mode ≠ some (.position t g)) :
    a.complete par = false := by
  unfold AxisUnit.complete
  split
  · next t g e => exact absurd e (m t g)
  · rfl

/-- A brake that reaches V = 0 leaves the mode none (R30). -/
theorem AxisUnit.finishTurn_brakeEnds {a : AxisUnit} {k : BrakeRate} (par : AxisParams) (h : a.state = .tracking false)
    (m : a.mode = some (.brake k)) :
    a.finishTurn par (a.advanced 0) false = { a with
      p := (a.advanced 0).p, f := (a.advanced 0).f, v := 0, tickV := 0
      speedRef := speedReference par (a.advanced 0).p a.e 0, mode := none, requester := none } := by
  simp [AxisUnit.finishTurn, h, m, AxisUnit.advanced]

/-- … and tells it to the block that asked for the brake. -/
theorem AxisUnit.turnReport_brakeEnds {a : AxisUnit} {k : BrakeRate} (par : AxisParams) (z : Option Nat)
    (h : a.state = .tracking false) (m : a.mode = some (.brake k)) :
    (a.turnReport par (a.advanced 0) false false z).zeroVelocity = a.requester := by
  simp [AxisUnit.turnReport, h, m, AxisUnit.advanced]

/-! ## The modes -/

/-- Settles O21: each mode's candidate is taken, but for a rake that a ceiling holds, and what is delivered changes no motion. -/
theorem tickMoves : Obligations.TickMoves := by
  intro s x r live record a par at_ inRange moved calm slowed toward
  have params : s.params x = par := State.params_of_record record x
  have ticks {P : State → Prop} (h : P s.profileTick) : ∃ t, exec .profileTick s = .next t ∧ P t :=
    ⟨_, exec_profileTick live, h⟩
  have movedBy {v : Int} (h : a.UnderWay v)
      (k : (s.tickTurn x).1 = a.finishTurn (s.params x) (a.advanced v) false) : moved s.profileTick v := by
    obtain ⟨⟨e1, e2, e3, e4, e5⟩, rest⟩ := State.profileTick_underWay h k
    rw [params] at e5
    exact ⟨e1, e2, e3, e4, e5, rest⟩
  refine ⟨?_, ?_, ?_, ?_, ?_⟩
  · intro target vseg zones running mode d v' going beyond range
    have h : a.UnderWay v' := .inl running
    obtain ⟨z, turned, -⟩ := State.tickTurn_underWay zones h (AxisUnit.complete_position mode (by rw [params]; exact going))
      (by rw [AxisUnit.candidate_position _ running mode, params]) (AxisUnit.advanceBy_underway range mode beyond)
    exact ticks (movedBy h turned)
  · intro d vseg zones running mode range
    have untargeted (t : Int) (g : Nat) : (s.axis x).mode ≠ some (.position t g) := by rw [mode]; simp
    have h : a.UnderWay (toward d vseg) := .inl running
    obtain ⟨z, turned, told⟩ := State.tickTurn_underWay zones h (AxisUnit.complete_untargeted _ untargeted)
      (by rw [AxisUnit.candidate_velocity _ running mode, params]; rfl) (AxisUnit.advanceBy_free range untargeted)
    refine ticks ⟨movedBy h turned, fun ⟨other, near⟩ => ?_⟩
    obtain ⟨u, at_u, e⟩ := State.profileTick_calmly zones other h (by rw [params]; exact near) told
    rw [AxisUnit.turnReport_zeroVelocity _ _ _ (by rw [mode]; simp), if_neg (by simp)] at e
    obtain ⟨st, -, kept⟩ := AxisUnit.finishTurn_tracking (s.params x) (toward d vseg) running
    rw [e, at_u.axis, turned]
    exact ⟨kept (by rw [mode]; simp), st⟩
  · intro k zones running mode v' range
    have untargeted (t : Int) (g : Nat) : (s.axis x).mode ≠ some (.position t g) := by rw [mode]; simp
    have h : a.UnderWay v' := .inl running
    obtain ⟨z, turned, told⟩ := State.tickTurn_underWay zones h (AxisUnit.complete_untargeted _ untargeted)
      (by rw [AxisUnit.candidate_brake _ running mode, params]; cases k <;> rfl) (AxisUnit.advanceBy_free range untargeted)
    refine ticks ⟨movedBy h turned, fun ⟨other, near⟩ => ?_⟩
    obtain ⟨u, at_u, e⟩ := State.profileTick_calmly zones other h (by rw [params]; exact near) told
    obtain ⟨st, -, kept⟩ := AxisUnit.finishTurn_tracking (s.params x) v' running
    have hu : (u.axis x).state = .tracking false := by rw [at_u.axis, turned]; exact st
    refine ⟨?_, fun short => ?_, fun ends asker => ?_, fun ends asker leg away free => ?_⟩
    · rw [e]
      split
      · exact State.zeroVelocity_keepsTracking hu
      · exact hu
    · rw [AxisUnit.turnReport_zeroVelocity _ _ _ (fun _ _ => short), if_neg (by simp)] at e
      rw [e, at_u.axis, turned]
      exact kept fun _ _ => short
    · rw [ends] at e turned
      rw [AxisUnit.turnReport_brakeEnds _ _ running mode, if_neg asker] at e
      rw [e, at_u.axis, turned, AxisUnit.finishTurn_brakeEnds _ running mode]
    · rw [ends] at e turned
      rw [AxisUnit.turnReport_brakeEnds _ _ running mode, if_pos asker] at e
      have axis := at_u.axis
      rw [turned, AxisUnit.finishTurn_brakeEnds _ running mode] at axis
      have same : ∀ y, u.params y = s.params y := fun y => by simp only [State.params, at_u.comm]
      have dir : u.searchDir x = s.searchDir x := by cases x <;> simp only [State.searchDir, same]
      have back := State.zeroVelocity_returns hu (by rw [axis]; exact leg) (by rw [axis, dir]; exact away)
        (by rw [axis]; exact free)
      rw [e]
      rwa [dir, same, params] at back
  · intro k zones stopping v' range short mode
    have untargeted (t : Int) (g : Nat) : (s.axis x).mode ≠ some (.position t g) := by rw [mode]; simp
    have h : a.UnderWay v' := .inr ⟨⟨k, stopping⟩, short⟩
    obtain ⟨z, turned, told⟩ := State.tickTurn_underWay zones h (AxisUnit.complete_untargeted _ untargeted)
      (by rw [AxisUnit.candidate_stopping _ stopping, params]; cases k <;> rfl) (AxisUnit.advanceBy_free range untargeted)
    refine ticks ⟨movedBy h turned, fun ⟨other, near⟩ => ?_⟩
    obtain ⟨u, at_u, e⟩ := State.profileTick_calmly zones other h (by rw [params]; exact near) told
    rw [AxisUnit.turnReport_zeroVelocity _ _ _ (by rw [mode]; simp), if_neg (by simp)] at e
    rw [e, at_u.axis, turned]
    exact (AxisUnit.finishTurn_underWay (s.params x) h).1.trans stopping
  · intro d vseg rake running mode range slower ceilings hi
    subst rake
    have untargeted (t : Int) (g : Nat) : (s.axis .rake).mode ≠ some (.position t g) := by rw [mode]; simp
    have takes {v : Int} (k : ((s.axis .rake).choose (s.params .rake)
        (fun adv => rakePasses s.ceilingLimit (s.rakeHiOf adv))).taken = (s.axis .rake).advanced v) : moved s.profileTick v :=
      movedBy (.inl running) (AxisUnit.turn_underWay _ (.inl running) (AxisUnit.complete_untargeted _ untargeted) k).1
    have candidate : (s.axis .rake).candidate (s.params .rake) = toward d vseg := by
      rw [AxisUnit.candidate_velocity _ running mode, params]; rfl
    have brakes : (s.axis .rake).brakingOption (s.params .rake) = slowed par.a := by
      rw [AxisUnit.brakingOption_velocity _ running mode, params]; rfl
    have passes : rakePasses s.ceilingLimit hi = true ↔ ∀ c ∈ ceilings, hi ≤ c := s.rakePasses_iff hi
    constructor
    · intro under
      refine ticks (takes ?_)
      rw [AxisUnit.choose_taken, candidate, if_pos (passes.mpr under), AxisUnit.advanceBy_free range untargeted]
    · rintro ⟨c, hc, above⟩
      refine ticks (takes ?_)
      rw [AxisUnit.choose_taken, candidate, brakes, if_neg fun e => absurd (passes.mp e c hc) (by omega),
        AxisUnit.advanceBy_free slower untargeted]

end Sys2Proof.Machine
end

-- ==== Proofs: the end of a move and of a stop ====
section
/-! SUPPORT. A POSITION move that arrives and a stop that reaches V = 0: the turn that ends it, and what the tick delivers to the
sequencer, to the enable monitor and to a request that waited (R17, R27, R32, R44, R47, R129). -/

namespace Sys2Proof.Machine

/-! ## The turn that ends in the hold -/

/-- The axis at rest in TRACKING at a place it has reached, with the hold running (R44). -/
def AxisUnit.heldAt (par : AxisParams) (a : AxisUnit) (p f : Int) : AxisUnit :=
  { a with
    p := p, f := f, v := 0, tickV := 0, speedRef := speedReference par p a.e 0, state := .tracking true
    timer := some par.holdTime, driveEnable := true, brakeRelease := true, mode := none, requester := none }

/-- A turn that ends a move at its target (R26, R27). -/
theorem AxisUnit.turn_arrives {a : AxisUnit} {par : AxisParams} {f : Advance → Bool} {t : Int} {vseg : Nat}
    (z : Advance → Option Nat) (free : ∀ d, f d = true) (running : a.state = .tracking false)
    (mode : a.mode = some (.position t vseg)) (going : t ≠ a.p) (near : (t - a.e).natAbs ≤ par.followLimit)
    (reaches : (t * 65536 - (a.p * 65536 + a.f + tableCandidate par.a par.vcreep vseg (t - a.p) a.v)) * (t - a.p).sign ≤ 0) :
    (a.turn par f z).1 = a.heldAt par t 0 ∧
      (a.turn par f z).2.1 = { TurnReport.quiet with completed := true, arrival := a.requester } := by
  have following : followingError par t a.e = false := decide_eq_false (by omega)
  rw [AxisUnit.turn_tracking f z running (AxisUnit.complete_position mode (by omega)), AxisUnit.choose_free free,
    AxisUnit.candidate_position par running mode, AxisUnit.advanceBy_arrives mode going reaches]
  constructor
  · simp [AxisUnit.finishTurn, running, AxisUnit.toHold, AxisUnit.enter, AxisState.enables, AxisState.releases, AxisUnit.heldAt]
  · simp [AxisUnit.turnReport, running, mode, following, TurnReport.quiet]

/-- What brings a stop to V = 0 in its place (R31, R32). -/
structure AxisUnit.StopsHere (par : AxisParams) (a : AxisUnit) (k : StopKind) : Prop where
  stopping : a.state = .stopping k
  mode : a.mode = none
  slow : a.v.natAbs ≤ k.of par
  fraction : 0 ≤ a.f ∧ a.f < 65536
  inRange : posMin ≤ a.p ∧ a.p ≤ posMax
  near : (a.p - a.e).natAbs ≤ par.followLimit

theorem AxisUnit.advanced_zero {a : AxisUnit} (h : 0 ≤ a.f ∧ a.f < 65536) :
    a.advanced 0 = { p := a.p, f := a.f, v := 0, arrived := false } := by
  unfold AxisUnit.advanced
  congr 1 <;> omega

theorem slowBy_zero {v : Int} {rate : Nat} (h : v.natAbs ≤ rate) : slowBy v rate = 0 := by
  simp [slowBy, signed, Nat.sub_eq_zero_of_le h]

/-- A turn that ends a stop (R32, R44). -/
theorem AxisUnit.turn_stops {a : AxisUnit} {par : AxisParams} {f : Advance → Bool} {k : StopKind}
    (z : Advance → Option Nat) (free : ∀ d, f d = true) (h : a.StopsHere par k) :
    (a.turn par f z).1 = a.heldAt par a.p a.f ∧ (a.turn par f z).2.1 = { TurnReport.quiet with stopEnd := true } := by
  have following : followingError par a.p a.e = false := decide_eq_false (by have := h.near; omega)
  have stays : a.advanceBy (a.candidate par) = { p := a.p, f := a.f, v := 0, arrived := false } := by
    have zero := AxisUnit.advanced_zero h.fraction
    have place : (a.p * 65536 + a.f + 0) / 65536 = a.p := congrArg Advance.p zero
    have inRange : a.InRange 0 := by rw [AxisUnit.InRange, place]; exact h.inRange
    rw [AxisUnit.candidate_stopping par h.stopping, slowBy_zero h.slow,
      AxisUnit.advanceBy_free inRange (by rw [h.mode]; simp), zero]
  rw [AxisUnit.turn_stopping f z h.stopping, AxisUnit.choose_free free, stays]
  constructor
  · simp [AxisUnit.finishTurn, h.stopping, AxisUnit.toHold, AxisUnit.enter, AxisState.enables, AxisState.releases,
      AxisUnit.heldAt, h.mode]
  · simp [AxisUnit.turnReport, h.stopping, following, TurnReport.quiet]

/-! ## What the tick delivers -/

theorem State.zeroHold_running {s : State} {x : Axis} (h : 0 < (s.params x).holdTime) : s.zeroHold x = s :=
  if_neg fun e => absurd e.2 (by omega)

theorem Turned.params {x : Axis} {s u : State} (h : Turned x s u) (y : Axis) : u.params y = s.params y := by
  simp only [State.params, h.comm]

/-- The tick in which a move arrives: the arrival is told to the block that asked for the move. -/
theorem State.profileTick_arrives {s : State} {x : Axis} {t : Int} {vseg : Nat} (zones : s.zones.rows = [])
    (other : (s.axis (otherAxis x)).atRest = true) (hold : 0 < (s.params x).holdTime)
    (running : (s.axis x).state = .tracking false) (mode : (s.axis x).mode = some (.position t vseg))
    (going : t ≠ (s.axis x).p) (near : (t - (s.axis x).e).natAbs ≤ (s.params x).followLimit)
    (reaches : (t * 65536 - ((s.axis x).p * 65536 + (s.axis x).f +
      tableCandidate (s.params x).a (s.params x).vcreep vseg (t - (s.axis x).p) (s.axis x).v)) *
        (t - (s.axis x).p).sign ≤ 0) :
    ∃ u, Turned x s u ∧ u.axis x = (s.axis x).heldAt (s.params x) t 0 ∧
      s.profileTick = u.arrived x (s.axis x).requester := by
  obtain ⟨f, z, free, turn⟩ := State.tickTurn_free zones x
  obtain ⟨axis, report⟩ := AxisUnit.turn_arrives z free running mode going near reaches
  obtain ⟨u, turned, e⟩ := State.profileTick_solo x zones other
  rw [turn, report] at e
  refine ⟨u, turned, by rw [turned.axis, turn, axis], ?_⟩
  rw [e]
  show (u.zeroHold x).arrived x (s.axis x).requester = _
  rw [State.zeroHold_running (by rw [turned.params]; exact hold)]

/-- The tick in which a stop ends: a request that waited is taken, and then the end is told. -/
theorem State.profileTick_stops {s : State} {x : Axis} {k : StopKind} (zones : s.zones.rows = [])
    (other : (s.axis (otherAxis x)).atRest = true)
    (h : (s.axis x).StopsHere (s.params x) k) :
    ∃ u, Turned x s u ∧ u.axis x = (s.axis x).heldAt (s.params x) (s.axis x).p (s.axis x).f ∧
      s.profileTick = ((u.takeAtStopEnd x).zeroHold x).stopEnded x := by
  obtain ⟨f, z, free, turn⟩ := State.tickTurn_free zones x
  obtain ⟨axis, report⟩ := AxisUnit.turn_stops z free h
  obtain ⟨u, turned, e⟩ := State.profileTick_solo x zones other
  rw [turn, report] at e
  exact ⟨u, turned, by rw [turned.axis, turn, axis], e⟩

theorem State.takeAtStopEnd_none {s : State} {x : Axis} (h : (s.axis x).pending = none) : s.takeAtStopEnd x = s := by
  unfold State.takeAtStopEnd
  simp only [h]
  split
  · next hp => cases hp
  · rfl

/-- R47: with no limit ACTIVE a request that waited is taken. -/
theorem State.takeAtStopEnd_takes {s : State} {x : Axis} {q : Request} (h : (s.axis x).state = .tracking true)
    (p : (s.axis x).pending = some q) (neg : (s.axis x).negLimit = false) (pos : (s.axis x).posLimit = false) :
    s.takeAtStopEnd x = s.setAxis x ((s.axis x).takeGoal q) := by
  unfold State.takeAtStopEnd
  simp only [h, p, AxisUnit.lockRefuses_free neg pos]
  rfl

/-- Without a search in STOPPING the end of a stop is nobody's to count. -/
theorem State.stopEnded_idle {s : State} {x : Axis} (h : (s.axis x).leg ≠ some .stopping) : s.stopEnded x = s := if_neg h

/-- R17: the end of the search in STOPPING, with its run. -/
theorem State.stopEnded_search {s : State} {x : Axis} (h : (s.axis x).leg = some .stopping) (run : s.mon.run = .home x) :
    (s.stopEnded x).axis x = { s.axis x with leg := none } ∧ (s.stopEnded x).mon.run = .none ∧
      (s.stopEnded x).fault = s.fault := by
  have e : s.stopEnded x = { s.setAxis x { s.axis x with leg := none } with mon := { s.mon with run := .none } } := by
    simp [State.stopEnded, h, run]
  rw [e]
  cases x <;> exact ⟨rfl, rfl, rfl⟩

/-! ## The sequencer's phases -/

/-- The phases wait out of RUNNING, and in MOVING while an axis is still to come. -/
theorem State.runPhases_waits {s : State}
    (h : s.seq.state ≠ .running ∨ s.seq.phase = .moving ∧ s.seq.movesDone = false) : s.runPhases = s := by
  show State.advance (63 + 1) s = s
  rcases h with h | ⟨moving, open_⟩
  · simp [State.advance, h]
  · simp [State.advance, moving, open_]

/-- MOVING done, the step dwells (R129, R130). -/
theorem State.runPhases_dwells {s : State} (running : s.seq.state = .running) (moving : s.seq.phase = .moving)
    (done : s.seq.movesDone = true) (dwell : 0 < s.currentStep.dwellMs) :
    s.runPhases = ({ s with seq := { s.seq with phase := .dwell, dwellElapsed := 0 } } : State).requestStatus := by
  show State.advance (62 + 1 + 1) s = _
  rw [State.advance, if_pos running]
  simp only [moving, done, if_true]
  rw [State.advance, if_pos (by exact running)]
  exact if_neg (show ¬ s.currentStep.dwellMs = 0 by omega)

theorem Sequencer.movesDone_iff (q : Sequencer) (x : Axis) :
    q.movesDone = true ↔ (q.move x).open_ = false ∧ (q.move (otherAxis x)).open_ = false := by
  cases x <;> simp [Sequencer.movesDone, Sequencer.move, otherAxis, and_comm]

theorem Sequencer.setMove_stepElapsed (q : Sequencer) (x : Axis) (m : MoveState) :
    (q.setMove x m).stepElapsed = q.stepElapsed := by cases x <;> rfl

theorem State.currentStep_setMove (s : State) (x : Axis) (m : MoveState) :
    ({ s with seq := s.seq.setMove x m } : State).currentStep = s.currentStep := by cases x <;> rfl

/-- A request with no lock on its way starts the drive of an axis in OFF (R40, R43). -/
theorem State.request_starts {s : State} {x : Axis} (q : Request) (off : (s.axis x).state = .off)
    (unready : (s.axis x).ready = false) (pending : s.comm.restartPending = false)
    (neg : (s.axis x).negLimit = false) (pos : (s.axis x).posLimit = false) :
    ∃ a f, s.request x q = { s.setAxis x a with fault := f } ∧ a.state = .starting .awaitReady ∧
      a.pending.map (·.asker) = some q.asker := by
  have axis := s.noticed_axis x x q.goal
  have frame := s.noticed_eq x q.goal
  rw [State.request_eq, if_neg (by rw [AxisUnit.lockRefuses_free neg pos]; simp),
    State.placeRequest_off _ (by rw [axis]; exact off) (by rw [frame]; exact pending) (by rw [axis]; exact unready), axis]
  refine ⟨{ s.axis x with
    p := (s.axis x).e, f := 0, pending := some (s.clamped x q), state := .starting .awaitReady, timer := some 500
    driveEnable := true, brakeRelease := false }, (s.noticed x q.goal).fault, ?_, rfl, rfl⟩
  rw [frame]
  cases x <;> rfl

/-! ## An arrival counted (R129, R134) -/

section Arrival

variable {s : State} {x : Axis}

theorem State.seqArrived_eq (converting : s.seq.converting = true) (asked : s.seq.move x = .requested) :
    s.seqArrived x =
      (if s.seq.state = .running ∧ s.seq.move (otherAxis x) = .heldBack then
        ({ s with seq := s.seq.setMove x .arrived } : State).giveTarget (otherAxis x)
      else { s with seq := s.seq.setMove x .arrived }).runPhases := by
  simp only [State.seqArrived, converting, asked, Sequencer.setMove_state, Sequencer.setMove_move_other, and_self, if_true]

/-- In PAUSED, and while the other axis is under way or interrupted, the arrival is counted and nothing else. -/
theorem State.seqArrived_waits (converting : s.seq.converting = true) (asked : s.seq.move x = .requested)
    (moving : s.seq.phase = .moving)
    (h : s.seq.state ≠ .running ∨ s.seq.move (otherAxis x) = .requested ∨ s.seq.move (otherAxis x) = .interrupted) :
    s.seqArrived x = { s with seq := s.seq.setMove x .arrived } := by
  rw [State.seqArrived_eq converting asked, if_neg, State.runPhases_waits]
  · refine h.imp (by simp) fun other => ⟨by simp [moving], ?_⟩
    rw [Bool.eq_false_iff, Ne, Sequencer.movesDone_iff _ x, Sequencer.setMove_move_other]
    rcases other with e | e <;> simp [e, MoveState.open_]
  · rintro ⟨running, held⟩
    rcases h with h | h | h
    · exact h running
    · exact MoveState.noConfusion (h.symm.trans held)
    · exact MoveState.noConfusion (h.symm.trans held)

/-- The last arrival of a step ends MOVING in DWELL. -/
theorem State.seqArrived_dwells (running : s.seq.state = .running) (asked : s.seq.move x = .requested)
    (moving : s.seq.phase = .moving) (h : s.seq.move (otherAxis x) = .none ∨ s.seq.move (otherAxis x) = .arrived)
    (dwell : 0 < s.currentStep.dwellMs) :
    s.seqArrived x = ({ s with seq := { s.seq.setMove x .arrived with phase := .dwell, dwellElapsed := 0 } } :
      State).requestStatus := by
  rw [State.seqArrived_eq (by simp [Sequencer.converting, running]) asked, if_neg, State.runPhases_dwells]
  · simpa using running
  · simpa using moving
  · rw [Sequencer.movesDone_iff _ x, Sequencer.setMove_move, Sequencer.setMove_move_other]
    rcases h with e | e <;> simp [e, MoveState.open_]
  · rwa [State.currentStep_setMove]
  · rintro ⟨-, held⟩
    rcases h with h | h
    · exact MoveState.noConfusion (h.symm.trans held)
    · exact MoveState.noConfusion (h.symm.trans held)

/-- The HELD_BACK axis, in OFF with no limit ACTIVE, is given its target and starts its drive. -/
theorem State.seqArrived_goesOn (running : s.seq.state = .running) (asked : s.seq.move x = .requested)
    (moving : s.seq.phase = .moving) (held : s.seq.move (otherAxis x) = .heldBack)
    (target : (s.currentStep.pair (otherAxis x)).isSome = true) (off : (s.axis (otherAxis x)).state = .off)
    (unready : (s.axis (otherAxis x)).ready = false) (pending : s.comm.restartPending = false)
    (neg : (s.axis (otherAxis x)).negLimit = false) (pos : (s.axis (otherAxis x)).posLimit = false) :
    ∃ a f, s.seqArrived x = { s.setAxis (otherAxis x) a with
        seq := (s.seq.setMove x .arrived).setMove (otherAxis x) .requested, fault := f } ∧
      a.state = .starting .awaitReady ∧ a.pending.map (·.asker) = some .sequencer := by
  obtain ⟨⟨t, v⟩, pair⟩ := Option.isSome_iff_exists.mp target
  let u : State := { s with seq := (s.seq.setMove x .arrived).setMove (otherAxis x) .requested }
  have axis : u.axis (otherAxis x) = s.axis (otherAxis x) := by cases x <;> rfl
  obtain ⟨a, f, given, starting, asker⟩ := State.request_starts (s := u) (x := otherAxis x)
    { goal := .position t (256 * v), asker := .sequencer } (by rw [axis]; exact off) (by rw [axis]; exact unready) pending
    (by rw [axis]; exact neg) (by rw [axis]; exact pos)
  have goes : ({ s with seq := s.seq.setMove x .arrived } : State).giveTarget (otherAxis x) =
      { s.setAxis (otherAxis x) a with
        seq := (s.seq.setMove x .arrived).setMove (otherAxis x) .requested, fault := f } := by
    rw [State.giveTarget, if_pos (by simpa using running), State.currentStep_setMove, pair]
    refine Eq.trans given ?_
    cases x <;> rfl
  refine ⟨a, f, ?_, starting, asker⟩
  rw [State.seqArrived_eq (by simp [Sequencer.converting, running]) asked, if_pos ⟨running, held⟩, goes,
    State.runPhases_waits]
  refine .inr ⟨by simp [moving], ?_⟩
  rw [Bool.eq_false_iff, Ne, Sequencer.movesDone_iff _ (otherAxis x), Sequencer.setMove_move]
  simp [MoveState.open_]

/-- What every counted arrival leaves of the axis, the run, the conversion and the step. -/
structure Counts (x : Axis) (s t : State) : Prop where
  axis : t.axis x = s.axis x
  mon : t.mon = s.mon
  state : t.seq.state = s.seq.state
  step : t.seq.step = s.seq.step
  move : t.seq.move x = .arrived

theorem Counts.waits (x : Axis) (s : State) : Counts x s { s with seq := s.seq.setMove x .arrived } :=
  ⟨by cases x <;> rfl, rfl, by simp, by simp, by simp⟩

theorem Counts.dwells (x : Axis) (s : State) :
    Counts x s ({ s with seq := { s.seq.setMove x .arrived with phase := .dwell, dwellElapsed := 0 } } :
      State).requestStatus := by
  rw [State.requestStatus_eq]
  exact ⟨by cases x <;> rfl, rfl, Sequencer.setMove_state _ _ _, Sequencer.setMove_step _ _ _, by cases x <;> rfl⟩

theorem Counts.goesOn (x : Axis) (s : State) (a : AxisUnit) (f : FaultUnit) :
    Counts x s { s.setAxis (otherAxis x) a with
      seq := (s.seq.setMove x .arrived).setMove (otherAxis x) .requested, fault := f } :=
  ⟨by cases x <;> rfl, by cases x <;> rfl, by simp, by simp, by cases x <;> rfl⟩

end Arrival

theorem Turned.currentStep {x : Axis} {s u : State} (h : Turned x s u) : u.currentStep = s.currentStep := by
  simp only [State.currentStep, State.slot, h.nv, h.seq]

/-! ## The end of a move and of a stop -/

/-- Settles O24: the turn ends in the hold, and the arrival or the stop's end is counted by the block that waits for it. -/
theorem moveAndStopEndInHold : Obligations.MoveAndStopEndInHold := by
  intro s x r target vseg d m k live record zones other hold a o par held otherStarts arrives stops
  have params : s.params x = par := State.params_of_record record x
  have hold' : 0 < (s.params x).holdTime := by rw [params]; exact hold
  have ticks {P : State → Prop} (h : P s.profileTick) : ∃ t, exec .profileTick s = .next t ∧ P t :=
    ⟨_, exec_profileTick live, h⟩
  have inHold {t : State} {p f : Int} (h : t.axis x = a.heldAt par p f) :
      held t ∧ (t.axis x).p = p ∧ (t.axis x).f = f := by
    simp only [held, h]
    exact ⟨⟨rfl, rfl, rfl, rfl, rfl, rfl, rfl, rfl⟩, rfl, rfl⟩
  have arrival (h : arrives) : ∃ u, Turned x s u ∧ u.axis x = a.heldAt par target 0 ∧
      s.profileTick = u.arrived x a.requester := by
    obtain ⟨running, mode, -, -, going, near, reaches⟩ := h
    rw [← params] at near reaches ⊢
    exact State.profileTick_arrives zones other hold' running mode going near reaches
  have stopEnd (h : stops) : ∃ u, Turned x s u ∧ u.axis x = a.heldAt par a.p a.f ∧
      s.profileTick = ((u.takeAtStopEnd x).zeroHold x).stopEnded x := by
    obtain ⟨stopping, mode, slow, f0, f1, p0, p1, near⟩ := h
    rw [← params]
    exact State.profileTick_stops zones other (k := k)
      ⟨stopping, mode, by rw [params]; cases k <;> exact slow, ⟨f0, f1⟩, ⟨p0, p1⟩, by rw [params]; exact near⟩
  have kept {u : State} (h : Turned x s u) : u.zeroHold x = u := State.zeroHold_running (by rw [h.params]; exact hold')
  refine ⟨?_, ?_, ?_, ?_, ?_⟩
  · intro h asker run
    obtain ⟨u, turned, axis, e⟩ := arrival h
    refine ticks ?_
    rw [e, asker]
    simp only [State.arrived, turned.mon, run, if_true]
    obtain ⟨hh, hp, hf⟩ := inHold axis
    exact ⟨hh, hp, hf, trivial, turned.fault⟩
  · intro h asker asked moving going starts
    obtain ⟨u, turned, axis, e⟩ := arrival h
    rw [asker] at e
    replace e : s.profileTick = u.seqArrived x := e
    refine ticks ?_
    have seq := turned.seq
    have asked' : u.seq.move x = .requested := by rw [seq]; exact asked
    have moving' : u.seq.phase = .moving := by rw [seq]; exact moving
    have counted {t : State} {P : Prop} (c : Counts x u t) (p : P) : held t ∧ (t.axis x).p = target ∧ (t.axis x).f = 0 ∧
        t.mon = s.mon ∧ t.seq.state = s.seq.state ∧ t.seq.step = s.seq.step ∧ t.seq.move x = .arrived ∧ P := by
      obtain ⟨hh, hp, hf⟩ := inHold (c.axis.trans axis)
      exact ⟨hh, hp, hf, c.mon.trans turned.mon, by rw [c.state, seq], by rw [c.step, seq], c.move, p⟩
    rw [e]
    by_cases waits : s.seq.state ≠ .running ∨
        s.seq.move (otherAxis x) = .requested ∨ s.seq.move (otherAxis x) = .interrupted
    · have converting : u.seq.converting = true := by
        rw [seq]; rcases going with p | ⟨p, -⟩ <;> simp [Sequencer.converting, p]
      rw [State.seqArrived_waits converting asked' moving' (by rwa [seq])]
      have stays : (u.seq.setMove x .arrived).phase = .moving ∧
          (u.seq.setMove x .arrived).move (otherAxis x) = s.seq.move (otherAxis x) := by
        rw [seq, Sequencer.setMove_phase, Sequencer.setMove_move_other]; exact ⟨moving, rfl⟩
      refine counted (.waits x u) ⟨fun _ => stays, fun _ _ => stays, fun running ended => ?_, fun running back => ?_⟩
      · rcases ended with n | n <;> simp [running, n] at waits
      · simp [running, back] at waits
    · obtain ⟨running, unasked⟩ := not_or.mp waits
      rw [not_not] at running
      have running' : u.seq.state = .running := by rw [seq]; exact running
      have unpaused : s.seq.state ≠ .paused := by rw [running]; simp
      by_cases back : s.seq.move (otherAxis x) = .heldBack
      · obtain ⟨pair, off, unready, pending, neg, pos⟩ := starts running back
        obtain ⟨b, f, goesOn, starting, by_⟩ := State.seqArrived_goesOn running' asked' moving' (by rw [seq]; exact back)
          (by rw [turned.currentStep]; exact pair) (by rw [turned.other]; exact off) (by rw [turned.other]; exact unready)
          (by rw [turned.comm]; exact pending) (by rw [turned.other]; exact neg) (by rw [turned.other]; exact pos)
        rw [goesOn]
        refine counted (.goesOn x u b f)
          ⟨fun p => absurd p unpaused, fun _ n => absurd n unasked, fun _ n => ?_, fun _ _ => ?_⟩
        · rcases n with n | n <;> simp [back] at n
        · have given : (({ u.setAxis (otherAxis x) b with
              seq := (u.seq.setMove x .arrived).setMove (otherAxis x) .requested, fault := f } : State).axis (otherAxis x)) =
              b := by
            cases x <;> rfl
          refine ⟨by simpa using moving', by simp, ?_, ?_⟩ <;> rw [given]
          · exact starting
          · exact by_
      · have ended : s.seq.move (otherAxis x) = .none ∨ s.seq.move (otherAxis x) = .arrived := by
          cases n : s.seq.move (otherAxis x) <;> simp_all
        have dwell : 0 < s.currentStep.dwellMs := (going.resolve_left unpaused).2
        rw [State.seqArrived_dwells running' asked' moving' (by rw [seq]; exact ended) (by rw [turned.currentStep]; exact dwell)]
        refine counted (.dwells x u)
          ⟨fun p => absurd p unpaused, fun _ n => absurd n unasked, fun _ _ => ?_, fun _ n => absurd n back⟩
        rw [State.requestStatus_eq]
        refine ⟨rfl, rfl, ?_, turned.fault⟩
        exact (Sequencer.setMove_stepElapsed _ _ _).trans (congrArg Sequencer.stepElapsed seq)
  · intro h none leg run
    obtain ⟨u, turned, axis, e⟩ := stopEnd h
    rw [State.takeAtStopEnd_none (by rw [axis]; exact none), kept turned] at e
    obtain ⟨ended, idle, fault⟩ := State.stopEnded_search (s := u) (x := x) (by rw [axis]; exact leg)
      (by rw [turned.mon]; exact run)
    refine ticks ?_
    rw [e]
    simp only [held, ended, axis]
    exact ⟨⟨rfl, rfl, rfl, rfl, rfl, rfl, rfl, rfl⟩, rfl, rfl, trivial, rfl, idle, fault.trans turned.fault⟩
  · intro h none leg
    obtain ⟨u, turned, axis, e⟩ := stopEnd h
    rw [State.takeAtStopEnd_none (by rw [axis]; exact none), kept turned,
      State.stopEnded_idle (by rw [axis]; exact fun l => nomatch leg.symm.trans l)] at e
    refine ticks ?_
    rw [e]
    obtain ⟨hh, hp, hf⟩ := inHold axis
    exact ⟨hh, hp, hf, turned.mon, turned.seq, turned.fault⟩
  · intro q h waits leg neg pos
    obtain ⟨u, turned, axis, e⟩ := stopEnd h
    rw [State.takeAtStopEnd_takes (q := q) (by rw [axis]; rfl) (by rw [axis]; exact waits) (by rw [axis]; exact neg)
      (by rw [axis]; exact pos), State.zeroHold_running (by rw [State.setAxis_params, turned.params]; exact hold'),
      State.stopEnded_idle (by rw [State.setAxis_axis, axis]; exact fun l => nomatch leg.symm.trans l)] at e
    refine ticks ?_
    rw [e]
    simp only [State.setAxis_axis, State.setAxis_mon, State.setAxis_seq, State.setAxis_fault, axis]
    exact ⟨rfl, rfl, rfl, rfl, rfl, rfl, rfl, rfl, rfl, rfl, rfl, turned.mon, turned.seq, turned.fault⟩

end Sys2Proof.Machine
end

-- ==== Proofs: what a step can change ====
section
/-! SUPPORT. What one step can do to the state, said once. `Change` lists the kinds of change: a calm operation, an axis read, parts
that stand beside the laws, COMMISSION entered, a script armed, the resets, START's checks, a millisecond. Every step is a chain of
them (`step_changes`), so a law that each kind keeps is kept by every step (`step_keeps`). -/

namespace Sys2Proof.Machine

/-- A reading of an axis: its inputs, counts, capture, search leg and PWM output may change, its motion and its outputs do not. -/
structure AxisUnit.Reads (a b : AxisUnit) : Prop where
  state : b.state = a.state
  driveEnable : b.driveEnable = a.driveEnable
  brakeRelease : b.brakeRelease = a.brakeRelease
  speedRef : b.speedRef = a.speedRef
  v : b.v = a.v
  tickV : b.tickV = a.tickV
  mode : b.mode = a.mode
  pending : b.pending = a.pending

/-- The kinds of change that a step is made of. -/
inductive Change : State → State → Prop
  /-- a shared operation of motion, faults, sequencer or bus -/
  | calm {s t : State} (h : Calm s t) : Change s t
  /-- an axis read -/
  | reads {s : State} (x : Axis) {a : AxisUnit} (h : (s.axis x).Reads a) : Change s (s.setAxis x a)
  /-- anything but the axes, the commissioning unit, the guard table, the peer view and the fault unit: the queue, the store and
  its content, the envelopes, the tick schedule, the stop chain -/
  | beside {s t : State} (slew : t.slew = s.slew) (rake : t.rake = s.rake) (comm : t.comm = s.comm)
      (zones : t.zones = s.zones) (peers : t.peers = s.peers) (fault : t.fault = s.fault) : Change s t
  /-- COMMISSION entered, the claims dropped (R179, R101) -/
  | commissions (s : State) (working : Option (List Byte)) :
      Change s { s with comm := { s.comm with mode := .commission, working := working }, zones := s.zones.dropClaims }
  /-- a conversion armed, with its script peers (R106, R122) -/
  | arms (s : State) (q : Sequencer) (script : List Nat) (h : grantsScript s.station s.peers script = true) :
      Change s { s with seq := q, peers := addScript s.peers script }
  /-- every block at its cold-reset value, out of reset or held in it (R54, R180) -/
  | cold (s : State) (nv : Nonvolatile) (pins : Pins) (fresh : Nat) (queue : List Instr) (held : Bool) :
      Change s { State.ofCold nv pins fresh queue with inReset := held }
  /-- a warm restart (R19, R180) -/
  | restarts (s : State) : Change s s.restarted
  /-- START's checks (R178) -/
  | starts {s : State} (level : BitVec 5) (h : s.comm.mode = .start) : Change s (s.started level)
  /-- a millisecond in the timers -/
  | passes (s : State) : Change s s.passTimers

/-- A chain of changes. -/
abbrev Changes : State → State → Prop := Relation.ReflTransGen Change

/-- What every kind of change keeps, a chain of changes keeps. -/
theorem Changes.keeps {P : State → Prop} (h : ∀ s t, Change s t → P s → P t) {s t : State} (c : Changes s t) (p : P s) :
    P t := by
  induction c with
  | refl => exact p
  | tail _ e ih => exact h _ _ e ih

theorem Calm.changes {s t : State} (h : Calm s t) : Changes s t := .single (.calm h)

/-- A change, and a calm operation after it. -/
theorem Change.then_calm {s t u : State} (h : Change s t) (k : Calm t u) : Changes s u := .head h k.changes

/-- What reaches a part out of reset changes what its operation does; a part held in reset stays (R18, R54). -/
theorem live_changes {f : State → State} {s t : State} (h : Changes s (f s)) (e : live f s = .next t) : Changes s t := by
  unfold live at e
  split at e <;> cases e
  · exact .refl
  · exact h

/-! ## Position units -/

theorem State.encoderSlip_calm (s : State) (x : Axis) : Calm s (s.encoderSlip x) :=
  (State.setReferenced_calm s x false).trans (State.report_calm _ _ _)

theorem State.transition_changes (s : State) (x : Axis) (a b : Bool) : Changes s (s.transition x a b) := by
  have counts (e : Int) (d : Option Dir) :
      Change s (s.setAxis x { s.axis x with e := e, lastDir := d, chA := a, chB := b }) :=
    .reads x ⟨rfl, rfl, rfl, rfl, rfl, rfl, rfl, rfl⟩
  unfold State.transition
  simp only
  split
  · exact .refl
  · exact (counts _ _).then_calm (State.encoderSlip_calm _ x)
  · split
    · exact (counts _ _).then_calm (State.encoderSlip_calm _ x)
    · exact .single (counts _ _)

theorem State.takeMark_changes (s : State) (x : Axis) : Changes s (s.takeMark x) := by
  unfold State.takeMark
  simp only
  generalize (s.axis x).captureOf (s.markPosition x) (s.slipTolerance x) = c
  generalize (if s.comm.record.isNone = true then s.fresh + 1 else s.fresh) = n
  have captured : Changes s { s.setAxis x { s.axis x with capture := some c } with fresh := n } := by
    refine .head (.reads (a := { s.axis x with capture := some c }) x ?_) (.single (.beside rfl rfl rfl rfl rfl rfl))
    exact ⟨rfl, rfl, rfl, rfl, rfl, rfl, rfl, rfl⟩
  generalize ({ s.setAxis x { s.axis x with capture := some c } with fresh := n } : State) = s1 at captured ⊢
  split
  · have preset : Change s1 (s1.setAxis x ((s1.axis x).preset (s.markPosition x))) :=
      .reads x ⟨rfl, rfl, rfl, rfl, rfl, rfl, rfl, rfl⟩
    exact captured.trans (preset.then_calm ((State.setReferenced_calm _ x true).trans (State.stopAxis_calm _ x _)))
  · exact captured.trans (State.encoderSlip_calm s1 x).changes
  · exact captured
  · exact captured

theorem State.switchCloses_changes (s : State) : Changes s s.switchCloses := by
  have closed : Changes s { s with rake := { s.rake with refSwitch := true } } :=
    .single (.reads .rake ⟨rfl, rfl, rfl, rfl, rfl, rfl, rfl, rfl⟩)
  unfold State.switchCloses
  split
  · exact .refl
  · simp only
    split
    · exact closed.trans (State.takeMark_changes _ _)
    · exact closed

theorem State.switchOpens_changes (s : State) : Changes s s.switchOpens := by
  have opened (l : Option Leg) : Change s { s with rake := { s.rake with refSwitch := false, leg := l } } :=
    .reads .rake ⟨rfl, rfl, rfl, rfl, rfl, rfl, rfl, rfl⟩
  unfold State.switchOpens
  split
  · simp only
    split
    · exact (opened _).then_calm (State.request_calm _ _ _)
    · exact .single (opened _)
  · exact .refl

theorem AxisUnit.setLimit_reads (a : AxisUnit) (d : Dir) (b : Bool) : a.Reads (a.setLimit d b) := by
  cases d <;> exact ⟨rfl, rfl, rfl, rfl, rfl, rfl, rfl, rfl⟩

theorem State.setLeg_calm (s : State) (x : Axis) (l : Option Leg) (m : Bool) :
    Calm s (s.setAxis x { s.axis x with leg := l, metLimit := m }) := .ofAxis s x _ (AxisUnit.setLeg_calm _ _ l m)

theorem State.secondLimit_calm (s : State) (x : Axis) : Calm s (s.secondLimit x) :=
  ((State.setLeg_calm s x none _).trans (State.report_calm _ _ _)).trans (State.report_calm _ _ _)

theorem State.limitMet_calm (s : State) (x : Axis) : Calm s (s.limitMet x) := by
  unfold State.limitMet
  split
  · exact (State.setLeg_calm s x _ _).trans (State.request_calm _ _ _)
  · exact State.report_calm _ _ _
  · exact State.report_calm _ _ _
  all_goals exact State.secondLimit_calm s x

theorem State.limitActive_changes (s : State) (x : Axis) (d : Dir) : Changes s (s.limitActive x d) := by
  have read : Change s (s.setAxis x ((s.axis x).setLimit d true)) := .reads x (AxisUnit.setLimit_reads _ d true)
  unfold State.limitActive
  split
  · exact .refl
  · simp only
    split
    · exact read.then_calm (State.limitMet_calm _ x)
    · exact .single read

/-! ## Profile tick and handshake -/

theorem State.profileTick_changes (s : State) : Changes s s.profileTick := by
  obtain ⟨u, k, e, -⟩ := s.profileTick_calm
  rw [e]
  exact .head (.beside (t := { s with tickLeft := u.tickLeft, env := u.env }) rfl rfl rfl rfl rfl rfl) k.changes

theorem State.readyActive_changes (s : State) (x : Axis) : Changes s (s.readyActive x) := by
  have read : Change s (s.setAxis x { s.axis x with ready := true }) := .reads x ⟨rfl, rfl, rfl, rfl, rfl, rfl, rfl, rfl⟩
  unfold State.readyActive
  split
  · exact .refl
  · simp only
    split
    · exact read.then_calm (State.readyTaken_calm _ x)
    · exact .single read

theorem State.driveFault_calm (s : State) (x : Axis) : Calm s (s.driveFault x) :=
  (State.faultAxis_calm s x).trans (State.report_calm _ _ _)

theorem State.readyInactive_changes (s : State) (x : Axis) : Changes s (s.readyInactive x) := by
  have read : Change s (s.setAxis x { s.axis x with ready := false }) := .reads x ⟨rfl, rfl, rfl, rfl, rfl, rfl, rfl, rfl⟩
  unfold State.readyInactive
  split
  · simp only
    split
    · exact read.then_calm (State.driveFault_calm _ x)
    · exact .single read
  · exact .refl

theorem State.readyLimitEnds_calm (s : State) (x : Axis) : Calm s (s.readyLimitEnds x) := by
  unfold State.readyLimitEnds
  split
  · exact State.driveFault_calm s x
  · exact .refl s

theorem State.releaseEnds_calm (s : State) (x : Axis) : Calm s (s.releaseEnds x) := by
  unfold State.releaseEnds
  split
  · exact State.releaseExpired_calm s x
  · exact .refl s

theorem State.holdEnds_calm (s : State) (x : Axis) : Calm s (s.holdEnds x) := by
  unfold State.holdEnds
  split
  · exact State.holdExpired_calm s x
  · exact .refl s

theorem State.setEnds_calm (s : State) (x : Axis) : Calm s (s.setEnds x) := by
  unfold State.setEnds
  split
  · exact State.setExpired_calm s x
  · exact .refl s

theorem Change.chain (s : State) (b : Bool) : Change s { s with chainOpen := b } := .beside rfl rfl rfl rfl rfl rfl

theorem State.chainOpens_changes (s : State) : Changes s s.chainOpens := by
  unfold State.chainOpens
  split
  · exact .refl
  · exact (Change.chain s true).then_calm (State.chainOpened_calm _)

/-- R34: the PWM output takes the speed reference. -/
theorem Change.pwm (s : State) (x : Axis) : Change s (s.setAxis x { s.axis x with pwm := (s.axis x).speedRef }) :=
  .reads x ⟨rfl, rfl, rfl, rfl, rfl, rfl, rfl, rfl⟩

/-! ## Timers of guard and sequencer, and the STOP line -/

theorem State.zoneWaitEnds_calm (s : State) : Calm s s.zoneWaitEnds := by
  unfold State.zoneWaitEnds
  split
  · exact State.zoneWaitExpired_calm s
  · exact .refl s

theorem State.stepTimeEnds_calm (s : State) : Calm s s.stepTimeEnds := by
  unfold State.stepTimeEnds
  split
  · exact (Calm.ofSeq s _).trans (State.report_calm _ _ _)
  · exact .refl s

theorem State.lineAsserts_calm (s : State) : Calm s s.lineAsserts := by
  have asserted : Calm s { s with fault := { s.fault with lineAsserted := true } } :=
    .ofFault s _ fun ok => ⟨ok.1, fun _ => rfl⟩
  unfold State.lineAsserts
  split
  · exact .refl s
  · simp only
    split
    · exact asserted.trans (State.lineReactions_calm _)
    · exact asserted

theorem State.lineReleases_calm (s : State) : Calm s s.lineReleases := by
  unfold State.lineReleases
  split
  · exact .refl s
  · next h => exact .ofFault s _ fun o => ⟨o.1, fun d => absurd d h⟩

/-! ## A frame received -/

theorem State.checkDuplicate_calm (s : State) (snd : Sender) : Calm s (s.checkDuplicate snd) := by
  unfold State.checkDuplicate
  split
  · exact State.report_calm _ _ _
  · exact .refl s

theorem State.discard_calm (s : State) : Calm s s.discard := by
  unfold State.discard
  split
  · exact .refl s
  · exact State.annul_calm s
  · exact State.annul_calm s
  · exact State.annul_calm s
  · exact .refl s

/-- A frame received changes what its hand-off changes. -/
theorem State.receive_changes (s : State) (frame : List Byte) (wf : Bool) (snd : Sender) {f : State → State}
    (h : ∀ t, Changes t (f t)) : Changes s (s.receive frame wf snd f) := by
  refine .head (.calm (.ofBus s { s.bus with rx := s.bus.rx.tookFrame frame })) ?_
  cases wf
  · exact (State.discard_calm _).changes
  · show Changes _ (State.sortFrame _ snd f)
    unfold State.sortFrame
    split
    · refine .head (.calm (State.checkDuplicate_calm _ snd)) ?_
      simp only
      split
      · exact .refl
      · exact h _
    · exact .refl

/-- A command received changes what its owner changes. -/
theorem State.receiveCommand_changes (s : State) (kind : Byte) (h : CommandHead) (args : List Byte) (defined : Bool)
    {owner : State → State × CmdOutcome} (k : ∀ t, Changes t (owner t).1) :
    Changes s (s.receiveCommand kind h args defined owner) := by
  refine State.receive_changes s _ _ _ fun t => ?_
  unfold State.command
  split
  · refine .tail ?_ (.calm (State.giveOutcome_calm _ _ _ _))
    split
    · exact .refl
    · exact k t
  · exact .refl

/-! ## Commands -/

theorem State.ownConvert_changes (s : State) (h : CommandHead) (layout : Byte) (delay : BitVec 16) :
    Changes s (s.ownConvert h layout delay).1 := by
  unfold State.ownConvert
  split
  · exact .refl
  · next slot count e =>
    have grants : grantsScript s.station s.peers (s.scriptPeers slot count) = true := by
      unfold State.judgeConvert at e
      repeat' split at e
      all_goals cases e
      assumption
    exact (Change.arms s _ _ grants).then_calm (State.requestStatus_calm _)

theorem State.ownCancel_calm (s : State) : Calm s s.ownCancel.1 := by
  unfold State.ownCancel
  split
  · exact State.seqToIdle_calm s
  · exact (State.stopRequested_calm s).trans (State.seqToAborted_calm _)
  · exact (State.stopRequested_calm s).trans (State.seqToAborted_calm _)
  all_goals exact .refl s

theorem State.ownJog_calm (s : State) (x : Axis) (d : Dir) (v : Nat) : Calm s (s.ownJog x d v).1 := by
  unfold State.ownJog
  split
  · exact .refl s
  · split
    · exact .refl s
    · exact (Calm.ofMon s _).trans (State.request_calm _ _ _)

theorem State.startHome_calm (s : State) (x : Axis) : Calm s (s.startHome x) :=
  (((State.setReferenced_calm s x false).trans (State.setLeg_calm _ x _ _)).trans (.ofMon _ _)).trans (State.request_calm _ _ _)

theorem State.ownHome_calm (s : State) (x : Axis) : Calm s (s.ownHome x).1 := by
  unfold State.ownHome
  split
  · exact .refl s
  · exact State.startHome_calm s x

theorem State.ownJogEnd_calm (s : State) (x : Axis) : Calm s (s.ownJogEnd x).1 := by
  unfold State.ownJogEnd
  split
  · exact (Calm.ofMon s _).trans (State.stopAxis_calm _ _ _)
  · exact .refl s

theorem AxisUnit.unfault_calm (p : AxisParams) (a : AxisUnit) : AxisUnit.Calm p a a.unfault := by
  unfold AxisUnit.unfault
  split
  · exact AxisUnit.toOff_calm p a
  · exact .refl p a

theorem State.clearFaults_calm (s : State) : Calm s s.clearFaults :=
  ((((Calm.ofAxis s .slew _ (AxisUnit.unfault_calm _ _)).trans (.ofAxis _ .rake _ (AxisUnit.unfault_calm _ _))).trans
    (.ofFault _ { s.fault with record := none, alsoSeen := [], drivesStop := false } fun _ => ⟨rfl, nofun⟩)).trans
    (State.requestStatus_calm _))

theorem State.ownClearFault_calm (s : State) : Calm s s.ownClearFault.1 := by
  unfold State.ownClearFault
  split
  · exact .refl s
  · split
    · exact State.clearFaults_calm s
    · exact .refl s

theorem State.rxConvert_changes (s : State) (h : CommandHead) (layout : Byte) (delay : BitVec 16) :
    Changes s (s.rxConvert h layout delay) :=
  State.receiveCommand_changes s _ _ _ _ fun t => t.ownConvert_changes h layout delay

theorem State.rxCancel_changes (s : State) (h : CommandHead) : Changes s (s.rxCancel h) :=
  State.receiveCommand_changes s _ _ _ _ fun t => t.ownCancel_calm.changes

theorem State.rxHome_changes (s : State) (h : CommandHead) (axis : Byte) : Changes s (s.rxHome h axis) := by
  refine State.receiveCommand_changes s _ _ _ _ fun t => ?_
  split
  · exact (t.ownHome_calm _).changes
  · exact .refl

theorem State.rxJog_changes (s : State) (h : CommandHead) (axis dir : Byte) (speed : BitVec 24) :
    Changes s (s.rxJog h axis dir speed) := by
  refine State.receiveCommand_changes s _ _ _ _ fun t => ?_
  split
  · exact (t.ownJog_calm _ _ _).changes
  · exact .refl

theorem State.rxJogEnd_changes (s : State) (h : CommandHead) (axis : Byte) : Changes s (s.rxJogEnd h axis) := by
  refine State.receiveCommand_changes s _ _ _ _ fun t => ?_
  split
  · exact (t.ownJogEnd_calm _).changes
  · exact .refl

theorem State.rxClearFault_changes (s : State) (h : CommandHead) : Changes s (s.rxClearFault h) :=
  State.receiveCommand_changes s _ _ _ _ fun t => t.ownClearFault_calm.changes

/-! ## STATUS, STOP, ENABLE, SERVICE_REPLY and the ages -/

theorem Calm.ofModPeer (s : State) (n : Nat) {f : PeerRecord → PeerRecord} (h : ∀ r, (f r).station = r.station) :
    Calm s { s with peers := modPeer n f s.peers } := by
  have stations : (modPeer n f s.peers).map (·.station) = s.peers.map (·.station) := by
    rw [modPeer, List.map_map]
    refine List.map_congr_left fun r _ => ?_
    simp only [Function.comp_apply]
    split
    · exact h r
    · rfl
  exact .ofPeers s _ (stations ▸ .refl _)

theorem State.statusArrival_calm (s : State) (n : Nat) (p : StatusPayload) : Calm s (s.statusArrival n p) := by
  have heard : Calm s { s with peers := modPeer n (PeerRecord.hear (peerStatusOf p)) s.peers } := .ofModPeer s n fun _ => rfl
  unfold State.statusArrival
  split
  · exact .refl s
  · simp only
    split <;> split
    · exact (heard.trans (State.zoneArrival_calm _ n)).trans (State.seqArrival_calm _ n)
    · exact heard.trans (State.seqArrival_calm _ n)
    · exact heard.trans (State.zoneArrival_calm _ n)
    · exact heard

theorem State.stopTaken_calm (s : State) : Calm s s.stopTaken :=
  ((State.stopBoth_calm s _).trans (State.endConversion_calm _ _)).trans (State.endRun_calm _)

theorem State.enableTaken_calm (s : State) (snd : Sender) (targets : BitVec 32) : Calm s (s.enableTaken snd targets) := by
  have present : Calm s { s with mon := { s.mon with present := true, timer := some Config.enableTime } } := .ofMon s _
  unfold State.enableTaken
  split
  · simp only
    split
    · exact present
    · exact present.trans (State.resume_calm _)
  · exact .refl s

theorem State.endRunStopping_calm (s : State) : Calm s s.endRunStopping := by
  unfold State.endRunStopping
  split
  · exact .refl s
  · exact (State.endRun_calm s).trans (State.stopAxis_calm _ _ _)

theorem State.enableEnds_calm (s : State) : Calm s s.enableEnds := by
  unfold State.enableEnds
  split
  · exact ((Calm.ofMon s _).trans (State.endRunStopping_calm _)).trans (State.pause_calm _)
  · exact .refl s

theorem State.peerToStale_calm (s : State) (n : Nat) : Calm s (s.peerToStale n) := by
  have aged : Calm s { s with peers := modPeer n PeerRecord.toStale s.peers } := .ofModPeer s n fun _ => rfl
  unfold State.peerToStale
  split
  · simp only
    split
    · exact aged.trans (State.zoneFreshness_calm _ n true)
    · exact aged
  · exact .refl s

theorem State.peerToLost_calm (s : State) (n : Nat) : Calm s (s.peerToLost n) := by
  have aged : Calm s (({ s with peers := modPeer n PeerRecord.toLost s.peers } : State).raiseNotice .peerLost) :=
    (Calm.ofModPeer s n (f := PeerRecord.toLost) fun _ => rfl).trans (State.raiseNotice_calm _ _)
  unfold State.peerToLost
  split
  · simp only
    split
    · exact aged.trans (State.zoneFreshness_calm _ n false)
    · exact aged
  · exact .refl s

theorem State.rxStatus_changes (s : State) (snd : Sender) (p : StatusPayload) : Changes s (s.rxStatus snd p) :=
  State.receive_changes s _ _ _ fun t => (t.statusArrival_calm _ p).changes

theorem State.rxStop_changes (s : State) (snd : Sender) : Changes s (s.rxStop snd) :=
  State.receive_changes s _ _ _ fun t => t.stopTaken_calm.changes

theorem State.rxEnable_changes (s : State) (snd : Sender) (targets : BitVec 32) : Changes s (s.rxEnable snd targets) :=
  State.receive_changes s _ _ _ fun t => (t.enableTaken_calm snd targets).changes

theorem State.rxReply_changes (s : State) (snd : Sender) (q k n o : Byte) (data : List Byte) :
    Changes s (s.rxReply snd q k n o data) :=
  State.receive_changes s _ _ _ fun _ => .refl

/-! ## Service requests -/

theorem State.handReply_calm (s : State) (n : Nat) (o : SvcOutcome) (data : List Byte) : Calm s (s.handReply n o data) := by
  unfold State.handReply
  split
  · exact .ofBus s _
  · exact .refl s
  · exact .refl s

/-- What a service request may change of the commissioning unit: all but the record in force, the straps and the mode. -/
theorem Calm.ofComm (s : State) (c : Commissioning) (record : c.record = s.comm.record) (straps : c.straps = s.comm.straps)
    (mode : c.mode = s.comm.mode) : Calm s { s with comm := c } :=
  ⟨rfl, rfl, rfl, record, straps, .inl mode, rfl, rfl, rfl, rfl, rfl, .refl _ _, .refl _ _, id,
    fun l h => mode.trans (l h), id, .refl _⟩

theorem State.answer_changes (s : State) (n : Nat) (a : Answer) : Changes s (s.answer n a) := by
  cases a
  · exact (State.handReply_calm s n _ _).changes
  · exact .single (.beside rfl rfl rfl rfl rfl rfl)

/-- A service request received changes what its owner changes. -/
theorem State.receiveRequest_changes (s : State) (kind : Byte) (r : ServiceReq) {owner : State → State × Answer}
    (h : ∀ t, Changes t (owner t).1) : Changes s (s.receiveRequest kind r owner) := by
  refine State.receive_changes s _ _ _ fun t => ?_
  unfold State.service
  split
  · split
    · exact .refl
    · next n _ =>
      refine .head (.calm ((Calm.ofBus t (t.bus.setPlace n (.reserved ⟨r.sender.station, kind, r.tag⟩))).trans
        (.ofComm _ { t.comm with jumper := r.jumper, strapLevel := r.straps } rfl rfl rfl))) ?_
      simp only
      split
      · exact (State.handReply_calm _ _ _ _).changes
      · exact (h _).trans (State.answer_changes _ _ _)
  · exact .refl

theorem State.enterCommission_changes (s : State) : Changes s s.enterCommission :=
  (Change.commissions s _).then_calm (State.announce_calm _ _)

theorem State.ownCommissionEnter_changes (s : State) : Changes s s.ownCommissionEnter.1 := by
  unfold State.ownCommissionEnter
  split
  · exact .refl
  · split
    · exact .refl
    · exact s.enterCommission_changes
    · split
      · exact s.enterCommission_changes
      · exact .refl
    · exact .refl
    · exact .refl

theorem State.setRestart_calm (s : State) : Calm s s.setRestart := .ofComm s _ rfl rfl rfl

theorem State.ownCommissionExit_calm (s : State) : Calm s s.ownCommissionExit.1 := by
  unfold State.ownCommissionExit
  split
  · exact .refl s
  · split
    · exact s.setRestart_calm
    · exact .refl s

theorem State.ownRestart_calm (s : State) : Calm s s.ownRestart.1 := by
  unfold State.ownRestart
  split
  · exact s.setRestart_calm
  · exact .refl s

theorem Change.store (s : State) (nv : Nonvolatile) (store : Store) : Change s { s with nv := nv, store := store } :=
  .beside rfl rfl rfl rfl rfl rfl

theorem State.ownWriteEnable_changes (s : State) : Changes s s.ownWriteEnable.1 := by
  unfold State.ownWriteEnable
  split
  · exact .refl
  · exact .single (.store s _ _)

theorem State.ownConfigWrite_calm (s : State) (args : List Byte) : Calm s (s.ownConfigWrite args).1 := by
  unfold State.ownConfigWrite
  split
  · exact .refl s
  · split
    · exact .refl s
    · split
      · exact .refl s
      · exact .ofComm s _ rfl rfl rfl

/-- A request that is answered from the state as it stands leaves it so. -/
theorem Changes.of_read {owner : State → State × Answer} (h : ∀ t, (owner t).1 = t) (t : State) : Changes t (owner t).1 := by
  rw [h]

theorem State.ownReadPeers_state (s : State) (args : List Byte) : (s.ownReadPeers args).1 = s := by
  unfold State.ownReadPeers; split <;> rfl

theorem State.ownReadCapture_state (s : State) (args : List Byte) : (s.ownReadCapture args).1 = s := by
  unfold State.ownReadCapture
  split
  · split <;> rfl
  · rfl

theorem State.ownReadSlot_state (s : State) (args : List Byte) : (s.ownReadSlot args).1 = s := by
  unfold State.ownReadSlot
  split
  · split
    · rfl
    · split <;> rfl
  · rfl

theorem State.rxIdentify_changes (s : State) (r : ServiceReq) : Changes s (s.rxIdentify r) :=
  State.receiveRequest_changes s _ r fun _ => .refl

theorem State.rxReadFault_changes (s : State) (r : ServiceReq) : Changes s (s.rxReadFault r) :=
  State.receiveRequest_changes s _ r fun _ => .refl

theorem State.rxReadPeers_changes (s : State) (r : ServiceReq) : Changes s (s.rxReadPeers r) :=
  State.receiveRequest_changes s _ r (Changes.of_read (State.ownReadPeers_state · _))

theorem State.rxReadCapture_changes (s : State) (r : ServiceReq) : Changes s (s.rxReadCapture r) :=
  State.receiveRequest_changes s _ r (Changes.of_read (State.ownReadCapture_state · _))

theorem State.rxReadSlot_changes (s : State) (r : ServiceReq) : Changes s (s.rxReadSlot r) :=
  State.receiveRequest_changes s _ r (Changes.of_read (State.ownReadSlot_state · _))

theorem State.rxCommissionEnter_changes (s : State) (r : ServiceReq) : Changes s (s.rxCommissionEnter r) :=
  State.receiveRequest_changes s _ r State.ownCommissionEnter_changes

theorem State.rxCommissionExit_changes (s : State) (r : ServiceReq) : Changes s (s.rxCommissionExit r) :=
  State.receiveRequest_changes s _ r fun t => t.ownCommissionExit_calm.changes

theorem State.rxRestart_changes (s : State) (r : ServiceReq) : Changes s (s.rxRestart r) :=
  State.receiveRequest_changes s _ r fun t => t.ownRestart_calm.changes

theorem State.rxWriteEnable_changes (s : State) (r : ServiceReq) : Changes s (s.rxWriteEnable r) :=
  State.receiveRequest_changes s _ r State.ownWriteEnable_changes

theorem State.rxEraseSlot_changes (s : State) (r : ServiceReq) : Changes s (s.rxEraseSlot r) :=
  State.receiveRequest_changes s _ r fun _ => .refl

theorem State.rxProgramSteps_changes (s : State) (r : ServiceReq) : Changes s (s.rxProgramSteps r) :=
  State.receiveRequest_changes s _ r fun _ => .refl

theorem State.rxFinalizeSlot_changes (s : State) (r : ServiceReq) : Changes s (s.rxFinalizeSlot r) :=
  State.receiveRequest_changes s _ r fun _ => .refl

theorem State.rxLockSlot_changes (s : State) (r : ServiceReq) : Changes s (s.rxLockSlot r) :=
  State.receiveRequest_changes s _ r fun _ => .refl

theorem State.rxConfigWrite_changes (s : State) (r : ServiceReq) : Changes s (s.rxConfigWrite r) :=
  State.receiveRequest_changes s _ r fun t => (t.ownConfigWrite_calm _).changes

theorem State.rxConfigCommit_changes (s : State) (r : ServiceReq) : Changes s (s.rxConfigCommit r) :=
  State.receiveRequest_changes s _ r fun _ => .refl

theorem State.rxByKind_changes (s : State) (kind : Byte) (r : ServiceReq) : Changes s (s.rxByKind kind r) := by
  unfold State.rxByKind
  split
  · exact s.rxIdentify_changes r
  · exact s.rxReadFault_changes r
  · exact s.rxReadPeers_changes r
  · exact s.rxReadCapture_changes r
  · exact s.rxReadSlot_changes r
  · exact s.rxCommissionEnter_changes r
  · exact s.rxCommissionExit_changes r
  · exact s.rxWriteEnable_changes r
  · exact s.rxEraseSlot_changes r
  · exact s.rxProgramSteps_changes r
  · exact s.rxFinalizeSlot_changes r
  · exact s.rxLockSlot_changes r
  · exact s.rxConfigWrite_changes r
  · exact s.rxConfigCommit_changes r
  · exact s.rxRestart_changes r
  · exact State.receiveRequest_changes s _ r fun _ => .refl

/-! ## Completions of the store -/

/-- A completion writes the stored content, ends the operation and hands in its reply (R183). -/
theorem State.finishJob_changes (s : State) (nv : Nonvolatile) (place : Nat) (o : SvcOutcome) :
    Changes s (({ s with nv := nv } : State).finishJob place o) :=
  (Change.store s nv { latch := false, job := none }).then_calm (State.handReply_calm _ _ _ _)

theorem State.eraseEnds_changes (s : State) : Changes s s.eraseEnds := by
  unfold State.eraseEnds
  split
  · exact s.finishJob_changes _ _ _
  · exact .refl

theorem State.programEnds_changes (s : State) : Changes s s.programEnds := by
  unfold State.programEnds
  split
  · exact s.finishJob_changes _ _ _
  · exact .refl

theorem State.finalizeEnds_changes (s : State) : Changes s s.finalizeEnds := by
  unfold State.finalizeEnds
  split
  · split
    · exact s.finishJob_changes s.nv _ _
    · split
      · exact s.finishJob_changes s.nv _ _
      · exact s.finishJob_changes _ _ _
  · exact .refl

theorem State.lockEnds_changes (s : State) : Changes s s.lockEnds := by
  unfold State.lockEnds
  split
  · exact s.finishJob_changes _ _ _
  · exact .refl

theorem State.commitEnds_changes (s : State) : Changes s s.commitEnds := by
  unfold State.commitEnds
  split
  · exact s.finishJob_changes _ _ _
  · exact .refl

/-! ## The transmitter -/

theorem State.startTransmit_calm (s : State) : Calm s s.startTransmit := by
  unfold State.startTransmit
  split
  · split
    · exact .ofBus s _
    · exact .refl s
  · exact .refl s

theorem State.completeFrame_calm (s : State) : Calm s s.completeFrame := by
  unfold State.completeFrame
  split
  · exact .refl s
  · exact (Calm.ofBus s _).trans (State.frameSent_calm _ _)

theorem State.dueTime_calm (s : State) : Calm s s.dueTime := by
  unfold State.dueTime
  split
  · exact .ofBus s _
  · exact .refl s

theorem State.silenceEnds_calm (s : State) : Calm s s.silenceEnds := by
  unfold State.silenceEnds
  split
  · exact (Calm.ofBus s _).trans (State.report_calm _ _ _)
  · exact .refl s
  · exact .refl s

/-! ## The line -/

/-- A frame that passed its checks changes what its row changes. -/
theorem State.runFrame_changes (s : State) (i : Instr) : Changes s (s.runFrame i) := by
  unfold State.runFrame
  split
  · exact s.rxStatus_changes _ _
  · exact s.rxStop_changes _
  · exact s.rxEnable_changes _ _
  · exact s.rxConvert_changes _ _ _
  · exact s.rxCancel_changes _
  · exact s.rxHome_changes _ _
  · exact s.rxJog_changes _ _ _ _
  · exact s.rxJogEnd_changes _ _
  · exact s.rxClearFault_changes _
  · exact s.rxReply_changes _ _ _ _ _ _
  · exact s.rxIdentify_changes _
  · exact s.rxReadFault_changes _
  · exact s.rxReadPeers_changes _
  · exact s.rxReadCapture_changes _
  · exact s.rxReadSlot_changes _
  · exact s.rxCommissionEnter_changes _
  · exact s.rxCommissionExit_changes _
  · exact s.rxRestart_changes _
  · exact s.rxWriteEnable_changes _
  · exact s.rxEraseSlot_changes _
  · exact s.rxProgramSteps_changes _
  · exact s.rxFinalizeSlot_changes _
  · exact s.rxLockSlot_changes _
  · exact s.rxConfigWrite_changes _
  · exact s.rxConfigCommit_changes _
  · exact s.rxByKind_changes _ _
  · exact .refl

theorem State.frameEnd_changes (s : State) (chars : List Byte) : Changes s (s.frameEnd chars) := by
  have judged : Changes s (s.judgeFrame chars) := by
    unfold State.judgeFrame
    split
    · exact s.runFrame_changes _
    · exact s.discard_calm.changes
  exact judged.tail (.calm (.ofBus _ _))

theorem State.lineEvent_changes (s : State) (e : LineEvent) : Changes s (s.lineEvent e) := by
  unfold State.lineEvent
  simp only
  generalize (s.readBack e).bus.rx.feed (s.readBack e).bus.tx.drives e = r
  refine .head (.calm (s.readBack_calm e)) (.head (.calm (.ofBus _ { (s.readBack e).bus with rx := r.1 })) ?_)
  refine .tail ?_ (.calm (State.checkSent_calm _))
  cases r.2
  · exact .refl
  · exact (State.discard_calm _).changes
  · exact State.frameEnd_changes _ _

theorem State.lineEvents_changes (s : State) (es : List LineEvent) : Changes s (s.lineEvents es) := by
  induction es generalizing s with
  | nil => exact .refl
  | cons e es ih => exact (s.lineEvent_changes e).trans (ih _)

theorem State.withdrawAt_changes (s : State) (bit : Nat) : Changes s (s.withdrawAt bit) := by
  unfold State.withdrawAt
  split
  · exact .refl
  · split
    · exact .refl
    · exact (Calm.ofBus s _).changes.trans (State.lineEvents_changes _ _)

/-! ## Resets and the end of START -/

theorem State.warmRestart_changes (s : State) : Changes s s.warmRestart := by
  unfold State.warmRestart
  split
  · exact .single (.restarts s)
  · exact .refl

theorem State.judgeReference_calm (s : State) (prior : Option Record) (x : Axis) : Calm s (s.judgeReference prior x) := by
  unfold State.judgeReference
  split
  · exact .refl s
  · exact State.setReferenced_calm s x false

/-- R36: an axis set to rest on its count keeps its outputs. -/
theorem AxisUnit.rest_calm (p : AxisParams) (a : AxisUnit) : AxisUnit.Calm p a a.rest :=
  ⟨⟨rfl, rfl, rfl, rfl, rfl, rfl, rfl, rfl, rfl, rfl⟩, id, fun ⟨_, _, waiting, creep, ticked, _⟩ =>
    ⟨Nat.zero_le _, nofun, waiting, creep, ticked, .inr rfl⟩⟩

theorem State.resumeAxes_changes (s : State) (prior : Option Record) : Changes s (s.resumeAxes prior) := by
  refine .head (.calm ((s.judgeReference_calm prior .slew).trans (State.judgeReference_calm _ prior .rake))) ?_
  refine .head (.calm (.ofAxis _ .slew _ (AxisUnit.rest_calm _ _))) ?_
  refine .head (.calm (.ofAxis _ .rake _ (AxisUnit.rest_calm _ _))) ?_
  exact .single (.beside rfl rfl rfl rfl rfl rfl)

theorem State.readChain_calm (s : State) : Calm s s.readChain := by
  unfold State.readChain
  split
  · exact s.chainOpened_calm
  · exact .refl s

theorem State.readLine_calm (s : State) : Calm s s.readLine := by
  unfold State.readLine
  split
  · exact s.lineReactions_calm
  · exact .refl s

theorem State.startEnds_changes (s : State) (straps : BitVec 5) : Changes s (s.startEnds straps) := by
  unfold State.startEnds
  split
  · next h =>
    refine .head (.starts straps h) ?_
    simp only
    split
    · exact (State.resumeAxes_changes _ _).tail (.calm ((State.readChain_calm _).trans (State.readLine_calm _)))
    · exact ((State.readChain_calm _).trans (State.readLine_calm _)).changes
  · exact .refl

/-! ## Every command, every step -/

theorem exec_changes {c : Instr} {s t : State} (h : exec c s = .next t) : Changes s t := by
  unfold exec at h
  cases c with
  | coldReset pins => cases h; exact .single (.cold s _ _ _ _ false)
  | resetTaken => cases h; exact .single (.cold s _ _ _ _ true)
  | startEnd straps => exact live_changes (s.startEnds_changes straps) h
  | warmRestart => exact live_changes s.warmRestart_changes h
  | encoderTransition x a b => exact live_changes (s.transition_changes x a b) h
  | slewIndexMark => exact live_changes (s.takeMark_changes .slew) h
  | rakeSwitchClose => exact live_changes s.switchCloses_changes h
  | rakeSwitchOpen => exact live_changes s.switchOpens_changes h
  | endLimitActive x d => exact live_changes (s.limitActive_changes x d) h
  | endLimitInactive x d => exact live_changes (.single (.reads x (AxisUnit.setLimit_reads _ d false))) h
  | profileTick => exact live_changes s.profileTick_changes h
  | driveReadyActive x => exact live_changes (s.readyActive_changes x) h
  | readyLimitExpiry x => exact live_changes (s.readyLimitEnds_calm x).changes h
  | brakeReleaseExpiry x => exact live_changes (s.releaseEnds_calm x).changes h
  | holdExpiry x => exact live_changes (s.holdEnds_calm x).changes h
  | brakeSetExpiry x => exact live_changes (s.setEnds_calm x).changes h
  | driveLoss x => exact live_changes (s.readyInactive_changes x) h
  | localStopChainOpen => exact live_changes s.chainOpens_changes h
  | localStopChainClose => exact live_changes (.single (.chain s false)) h
  | claimWindowExpiry => exact live_changes s.windowExpired_calm.changes h
  | zoneTimeout => exact live_changes s.zoneWaitEnds_calm.changes h
  | statusFrame snd p => exact live_changes (s.rxStatus_changes snd p) h
  | peerStale n => exact live_changes (s.peerToStale_calm n.toNat).changes h
  | peerLost n => exact live_changes (s.peerToLost_calm n.toNat).changes h
  | stopFrame snd => exact live_changes (s.rxStop_changes snd) h
  | enableFrame snd targets => exact live_changes (s.rxEnable_changes snd targets) h
  | enableExpiry => exact live_changes s.enableEnds_calm.changes h
  | convert head layout delay => exact live_changes (s.rxConvert_changes head layout delay) h
  | cancel head => exact live_changes (s.rxCancel_changes head) h
  | home head x => exact live_changes (s.rxHome_changes head x) h
  | jog head x d v => exact live_changes (s.rxJog_changes head x d v) h
  | jogEnd head x => exact live_changes (s.rxJogEnd_changes head x) h
  | clearFault head => exact live_changes (s.rxClearFault_changes head) h
  | serviceReplyFrame snd q k n o data => exact live_changes (s.rxReply_changes snd q k n o data) h
  | frameDiscard line => exact live_changes (s.lineEvents_changes line) h
  | identify r => exact live_changes (s.rxIdentify_changes r) h
  | readFault r => exact live_changes (s.rxReadFault_changes r) h
  | readPeers r => exact live_changes (s.rxReadPeers_changes r) h
  | readCapture r => exact live_changes (s.rxReadCapture_changes r) h
  | readSlot r => exact live_changes (s.rxReadSlot_changes r) h
  | commissionEnter r => exact live_changes (s.rxCommissionEnter_changes r) h
  | commissionExit r => exact live_changes (s.rxCommissionExit_changes r) h
  | restart r => exact live_changes (s.rxRestart_changes r) h
  | writeEnable r => exact live_changes (s.rxWriteEnable_changes r) h
  | eraseSlot r => exact live_changes (s.rxEraseSlot_changes r) h
  | eraseComplete => exact live_changes s.eraseEnds_changes h
  | programSteps r => exact live_changes (s.rxProgramSteps_changes r) h
  | programComplete => exact live_changes s.programEnds_changes h
  | finalizeSlot r => exact live_changes (s.rxFinalizeSlot_changes r) h
  | finalizeComplete => exact live_changes s.finalizeEnds_changes h
  | lockSlot r => exact live_changes (s.rxLockSlot_changes r) h
  | lockComplete => exact live_changes s.lockEnds_changes h
  | configWrite r => exact live_changes (s.rxConfigWrite_changes r) h
  | configCommit r => exact live_changes (s.rxConfigCommit_changes r) h
  | commitComplete => exact live_changes s.commitEnds_changes h
  | undefinedServiceReq k r => exact live_changes (s.rxByKind_changes k r) h
  | transmitStart => exact live_changes s.startTransmit_calm.changes h
  | withdraw bit => exact live_changes (s.withdrawAt_changes bit) h
  | frameComplete => exact live_changes s.completeFrame_calm.changes h
  | statusDue => exact live_changes s.dueTime_calm.changes h
  | busSilent => exact live_changes s.silenceEnds_calm.changes h
  | holdOffExpiry => exact live_changes s.holdOffExpires_calm.changes h
  | stepTimeout => exact live_changes s.stepTimeEnds_calm.changes h
  | dwellEnd => exact live_changes s.dwellEnds_calm.changes h
  | stopLineAsserted => exact live_changes s.lineAsserts_calm.changes h
  | stopLineReleased => exact live_changes s.lineReleases_calm.changes h
  | pwmPeriodStart x => exact live_changes (.single (.pwm s x)) h

theorem State.passMs_changes (s : State) : Changes s s.passMs := by
  have rested : Changes s s.restLine := by
    unfold State.restLine
    split
    · exact .refl
    · exact s.lineEvent_changes _
  unfold State.passMs
  split
  · exact .refl
  · exact rested.tail (.passes _)

/-- Every step is a chain of changes: of the command at the front of the queue, or of a millisecond. -/
theorem step_changes {s t : State} (h : step s = .next t) : Changes s t := by
  unfold step at h
  split at h
  · cases h; exact s.passMs_changes
  · next c queue _ =>
    exact .head (.beside (t := { s with pending := queue }) rfl rfl rfl rfl rfl rfl) (exec_changes h)

/-- A law that every kind of change keeps is kept by every step. -/
theorem step_keeps {P : State → Prop} (h : ∀ s t, Change s t → P s → P t) {s t : State} (e : step s = .next t) (p : P s) :
    P t :=
  (step_changes e).keeps h p

end Sys2Proof.Machine
end

-- ==== Proofs: the law of the axis velocity ====
section
/-! SUPPORT. Every kind of change keeps the law of the axis velocity (R20, R22): a reset leaves both axes at rest, START's end finds
no record in force and takes one whose Vcreep is at most Vmax (R181), and only the calm operations touch a velocity else. -/

namespace Sys2Proof.Machine

/-! ## One axis -/

/-- A reading leaves all that the law speaks of. -/
theorem AxisUnit.Reads.speedOk {p : AxisParams} {a b : AxisUnit} (h : a.Reads b) (o : a.speedOk p) : b.speedOk p := by
  unfold AxisUnit.speedOk at o ⊢
  rwa [h.v, h.mode, h.pending, h.tickV]

/-- An axis with no velocity, no mode and no request keeps the law under any parameters with Vcreep within Vmax. -/
theorem AxisUnit.speedOk_still {p : AxisParams} {a : AxisUnit} (v : a.v = 0) (tickV : a.tickV = 0) (mode : a.mode = none)
    (pending : a.pending = none) (creep : p.vcreep ≤ p.vmax) : a.speedOk p := by
  simp [AxisUnit.speedOk, v, tickV, mode, pending, creep]

/-- Without a record in force every speed is 0, so that any Vmax bounds it. -/
theorem AxisUnit.speedOk.of_default {a : AxisUnit} (h : a.speedOk default) {p : AxisParams} (creep : p.vcreep ≤ p.vmax) :
    a.speedOk p := by
  obtain ⟨v, mode, waiting, -, ticked, last⟩ := h
  exact ⟨v.trans (Nat.zero_le _), fun g e => (mode g e).trans (Nat.zero_le _),
    fun r e => (waiting r e).trans (Nat.zero_le _), creep, ticked.trans (Nat.zero_le _), last⟩

/-! ## The record that comes in force (R181) -/

theorem axisRelations_creep {l : AxisLayout} {bs : List Byte} (h : (axisRelations l bs).all (·.2) = true) :
    u24 bs (l.speeds + 6) ≤ u24 bs l.speeds := by
  have listed : ([l.speeds, l.speeds + 6], decide (u24 bs (l.speeds + 6) ≤ u24 bs l.speeds)) ∈ axisRelations l bs := by
    simp [axisRelations]
  exact of_decide_eq_true (List.all_eq_true.mp h _ listed)

theorem Nonvolatile.loaded_creep {nv : Nonvolatile} {n : Nat} {r : Record} (h : nv.loaded n = some r) (x : Axis) :
    (r.axis x).vcreep ≤ (r.axis x).vmax := by
  unfold Nonvolatile.loaded at h
  split at h
  · next good =>
    cases h
    have ok : recordOk n nv.record = true := good.2.2
    simp only [recordOk, relations, List.all_append, Bool.and_eq_true] at ok
    obtain ⟨-, ⟨slew, rake⟩, -⟩ := ok
    cases x
    · exact axisRelations_creep slew
    · exact axisRelations_creep rake
  · cases h

theorem State.started_creep (s : State) (level : BitVec 5) (x : Axis) :
    ((s.started level).params x).vcreep ≤ ((s.started level).params x).vmax := by
  unfold State.params
  split
  · next r e => exact Nonvolatile.loaded_creep e x
  · exact Nat.le_refl 0

/-! ## The law over the state -/

theorem State.params_of_none {s : State} (h : s.comm.record = none) (x : Axis) : s.params x = default := by
  simp [State.params, h]

/-- The law passes to a state with the same axes, the same record, and no START that was not one before. -/
theorem State.speedsOk.of_same {s t : State} (o : s.speedsOk) (slew : t.slew = s.slew) (rake : t.rake = s.rake)
    (record : t.comm.record = s.comm.record) (mode : t.comm.mode = .start → s.comm.mode = .start) : t.speedsOk := by
  obtain ⟨os, or_, om⟩ := o
  have params (x : Axis) : t.params x = s.params x := by unfold State.params; rw [record]
  exact ⟨by rwa [slew, params], by rwa [rake, params], fun m => record.trans (om (mode m))⟩

/-- A reset or restart leaves the law with both axes still and no record in force. -/
theorem State.speedsOk_still {t : State} (record : t.comm.record = none)
    (still : ∀ x, (t.axis x).v = 0 ∧ (t.axis x).tickV = 0 ∧ (t.axis x).mode = none ∧ (t.axis x).pending = none) :
    t.speedsOk := by
  have ok (x : Axis) : (t.axis x).speedOk (t.params x) := by
    obtain ⟨v, tickV, mode, pending⟩ := still x
    exact AxisUnit.speedOk_still v tickV mode pending (by rw [State.params_of_none record]; exact Nat.le_refl 0)
  exact ⟨ok .slew, ok .rake, fun _ => record⟩

theorem Change.speedsOk {s t : State} (h : Change s t) (o : s.speedsOk) : t.speedsOk := by
  cases h with
  | calm k => exact k.speedsOk o
  | reads x k =>
    obtain ⟨os, or_, om⟩ := o
    cases x
    · exact ⟨k.speedOk os, or_, om⟩
    · exact ⟨os, k.speedOk or_, om⟩
  | beside slew rake comm => exact o.of_same slew rake (by rw [comm]) (by rw [comm]; exact id)
  | commissions => exact o.of_same rfl rfl rfl nofun
  | arms => exact o.of_same rfl rfl rfl id
  | cold => exact State.speedsOk_still rfl fun x => by cases x <;> exact ⟨rfl, rfl, rfl, rfl⟩
  | restarts => exact State.speedsOk_still rfl fun x => by cases x <;> exact ⟨rfl, rfl, rfl, rfl⟩
  | starts level start =>
    obtain ⟨os, or_, om⟩ := o
    rw [State.params_of_none (om start)] at os or_
    refine ⟨os.of_default (s.started_creep level .slew), or_.of_default (s.started_creep level .rake), fun m => ?_⟩
    simp only [State.started] at m
    split at m <;> cases m
  | passes => exact o

/-- Settles O58: a step is a chain of changes, each of which keeps the law. -/
theorem speedsKept : Obligations.SpeedsKept := fun _ _ o e => step_keeps (fun _ _ => Change.speedsOk) e o

end Sys2Proof.Machine
end

-- ==== Proofs: a tick at rest ====
section
/-! SUPPORT. The profile tick of two axes in OFF or FAULTED (R36, R53, R55 to R60). -/

namespace Sys2Proof.Machine

/-! ## What the zone guard's event leaves of a tick -/

/-- R85: the zone guard's event of a tick touches its own table and the bus's queue alone. -/
theorem State.zoneTick_eq (s b : State) :
    s.zoneTick b = { s with zones := (s.zoneTick b).zones, bus := (s.zoneTick b).bus } := by
  unfold State.zoneTick State.announce
  rw [State.judgeZoneWait_eq, State.select_eq]
  split
  · rfl
  · rw [State.requestStatus_eq]

/-! ## Envelopes of an axis that stands at E -/

/-- R56: with V = 0 at P = E the stop point is E. -/
theorem stopPoint_still (par : AxisParams) {e : Int} (lo : posMin ≤ e) (hi : e ≤ posMax) : stopPoint par e e 0 = e := by
  simp [stopPoint, satPos, lo, hi]

/-- R57: the envelope of a REFERENCED axis that stands at E is E ± M. -/
theorem currentRange_still (par : AxisParams) {e : Int} (lo : posMin ≤ e) (hi : e ≤ posMax) :
    currentRange par e e 0 = { lo := max posMin (e - par.margin), hi := min posMax (e + par.margin) } := by
  have low : satPos (e - par.margin) = max posMin (e - par.margin) := by
    unfold satPos; rw [min_eq_right (by omega)]
  have high : satPos (e + par.margin) = min posMax (e + par.margin) := by
    unfold satPos; rw [max_eq_right (le_min (by decide) (by omega))]
  simp only [currentRange, stopPoint_still par lo hi, min_self, max_self, low, high]

theorem AxisUnit.travel_atRest {a : AxisUnit} {st : AxisState} (h : st = .off ∨ st = .faulted) : a.travel st = none := by
  rcases h with rfl | rfl <;> rfl

theorem AxisUnit.envV_atRest {a : AxisUnit} {st : AxisState} (h : st = .off ∨ st = .faulted) : a.envV st = 0 := by
  rcases h with rfl | rfl <;> rfl

/-! ## The tick -/

/-- The slew current envelope that a tick of a slew at rest writes. -/
def State.restRange (s : State) : Range :=
  match s.comm.record with
  | none => Range.whole
  | some r => slewEnvelope r.slew s.slew.referenced s.slew.e s.slew.e 0

/-- The rake envelope hi that a tick of a rake at rest writes. -/
def State.restHi (s : State) : Int :=
  match s.comm.record with
  | none => posMax
  | some r => rakeEnvelopeHi r.rake s.rake.referenced s.rake.e s.rake.e 0

/-- The envelopes that a tick of two axes at rest writes. -/
def State.restEnvelopes (s : State) : Envelopes where
  slew := s.restRange
  approach := s.restRange
  travel := none
  velLeft := 0
  rakeHi := s.restHi

/-- The state after the turns of two axes at rest. -/
def State.restTurns (s : State) : State :=
  { s with tickLeft := Config.tickPeriod, slew := s.slew.restTurn, rake := s.rake.restTurn, env := s.restEnvelopes }

theorem State.tickRake_atRest {s : State} (h : s.rake.atRest = true) :
    s.tickRake = ({ s with rake := s.rake.restTurn, env := { s.env with rakeHi := s.restHi } }, .quiet) := by
  have still : s.rake.state = .off ∨ s.rake.state = .faulted := of_decide_eq_true h
  unfold State.tickRake State.restHi
  simp only [AxisUnit.turn_atRest h, AxisUnit.envV_atRest still]
  cases e : s.comm.record with
  | none => rfl
  | some r => rw [State.params_of_record e]; rfl

theorem State.tickSlew_atRest {s : State} (h : s.slew.atRest = true) :
    s.tickSlew = ({ s with slew := s.slew.restTurn, env := { s.restEnvelopes with rakeHi := s.env.rakeHi } }, .quiet) := by
  have still : s.slew.state = .off ∨ s.slew.state = .faulted := of_decide_eq_true h
  unfold State.tickSlew State.slewEnvelopes State.restEnvelopes State.restRange
  simp only [AxisUnit.turn_atRest h, AxisUnit.travel_atRest still, AxisUnit.envV_atRest still]
  cases e : s.comm.record with
  | none => rfl
  | some r => rw [State.params_of_record e]; rfl

/-- A tick of two axes at rest is its turns and the zone guard's event. -/
theorem State.profileTick_atRest {s : State} (slew : s.slew.atRest = true) (rake : s.rake.atRest = true) :
    s.profileTick = s.restTurns.zoneTick s := by
  have first := State.tickRake_atRest (s := { s with tickLeft := Config.tickPeriod }) rake
  have second : ({ s with tickLeft := Config.tickPeriod } : State).tickRake.1.tickSlew = (s.restTurns, .quiet) := by
    rw [first]; exact State.tickSlew_atRest slew
  unfold State.profileTick
  simp only [second, congrArg Prod.snd first]
  rfl

/-- Settles O20: the turns leave both axes and the envelopes, and the zone guard's event touches neither. -/
theorem tickAtRest : Obligations.TickAtRest := by
  intro s live slew rake slewLo slewHi rakeLo rakeHi
  refine ⟨_, exec_profileTick live, ?_⟩
  rw [State.profileTick_atRest slew rake, State.zoneTick_eq]
  refine ⟨rfl, rfl, rfl, rfl, rfl, ?_, ?_, rfl, rfl, rfl, rfl, rfl, rfl, rfl⟩
  · show s.restRange = _
    unfold State.restRange slewEnvelope
    cases s.comm.record with
    | none => rfl
    | some r => simp only [currentRange_still r.slew slewLo slewHi]; rfl
  · show s.restHi = _
    unfold State.restHi rakeEnvelopeHi
    cases s.comm.record with
    | none => rfl
    | some r => simp only [currentRange_still r.rake rakeLo rakeHi]

end Sys2Proof.Machine
end

-- ==== Proofs: drive-ready, hold and brake set time ====
section
/-! SUPPORT. The handshake of an axis from drive-ready to OFF, for one axis whole (R34, R36, R41, R46, R47). -/

namespace Sys2Proof.Machine

/-! ## Drive-ready (R41, R42) -/

theorem exec_driveReadyActive {s : State} (h : s.inReset = false) (x : Axis) :
    exec (.driveReadyActive x) s = .next (s.readyActive x) := live_of_not_inReset (·.readyActive x) h

/-- The release time ends with a request that the lock lets pass (R42). -/
theorem State.releaseExpired_takes {s : State} {x : Axis} {r : Request} (p : (s.axis x).pending = some r)
    (n : (s.axis x).negLimit = false) (m : (s.axis x).posLimit = false) :
    s.releaseExpired x = s.setAxis x ((s.axis x).takeGoal r) := by
  unfold State.releaseExpired
  simp only [p, AxisUnit.lockRefuses_free n m]
  rfl

theorem State.readyTaken_waits {s : State} {x : Axis} (h : 0 < (s.params x).releaseTime) :
    s.readyTaken x = s.setAxis x ((s.axis x).enter (.starting .releasing) (some (s.params x).releaseTime)) :=
  if_neg (by omega)

/-- A release time of 0 expires at once (R41). -/
theorem State.readyTaken_atOnce {s : State} {x : Axis} (h : (s.params x).releaseTime = 0) :
    s.readyTaken x = (s.setAxis x ((s.axis x).enter (.starting .releasing) (some 0))).releaseExpired x := by
  unfold State.readyTaken
  simp only [h, if_true]

theorem State.readyActive_awaited {s : State} {x : Axis} (low : (s.axis x).ready = false)
    (h : (s.axis x).state = .starting .awaitReady) :
    s.readyActive x = (s.setAxis x { s.axis x with ready := true }).readyTaken x := by
  simp [State.readyActive, low, h]

theorem State.readyActive_aside {s : State} {x : Axis} (low : (s.axis x).ready = false)
    (h : (s.axis x).state ≠ .starting .awaitReady) :
    s.readyActive x = s.setAxis x { s.axis x with ready := true } := by
  simp [State.readyActive, low, h]

/-- Settles O27: drive-ready is taken in AWAIT_READY alone, and a release time of 0 takes the request at once. -/
theorem driveReadyTaken : Obligations.DriveReadyTaken := by
  intro s x r live
  refine ⟨live_of_not_inReset (fun t => t.setAxis x { t.axis x with pwm := (t.axis x).speedRef }) live,
    fun low => ⟨fun awaits time => ?_, fun awaits time waiting neg pos => ?_, fun away => ?_⟩⟩ <;>
    rw [exec_driveReadyActive live]
  · rw [State.readyActive_awaited low awaits, State.readyTaken_waits (by rwa [State.setAxis_params])]
    simp only [State.setAxis_axis, State.setAxis_setAxis, State.setAxis_params]
    rfl
  · rw [State.readyActive_awaited low awaits, State.readyTaken_atOnce (by rwa [State.setAxis_params])]
    simp only [State.setAxis_axis, State.setAxis_setAxis]
    rw [State.releaseExpired_takes (r := r) (by rwa [State.setAxis_axis]) (by rwa [State.setAxis_axis])
      (by rwa [State.setAxis_axis])]
    simp only [State.setAxis_axis, State.setAxis_setAxis]
    rfl
  · rw [State.readyActive_aside low away]

/-! ## Hold and brake set time (R46, R47) -/

theorem exec_holdExpiry {s : State} {x : Axis} (h : s.inReset = false) (holds : (s.axis x).state = .tracking true) :
    exec (.holdExpiry x) s = .next ((s.setAxis x ((s.axis x).toSettling (s.params x).setTime)).takeAtOff x) :=
  (live_of_not_inReset (·.holdEnds x) h).trans (congrArg _ (if_pos holds))

theorem exec_brakeSetExpiry {s : State} {x : Axis} (h : s.inReset = false) (settles : (s.axis x).state = .settling) :
    exec (.brakeSetExpiry x) s = .next ((s.setAxis x (s.axis x).toOff).takeAtOff x) :=
  (live_of_not_inReset (·.setEnds x) h).trans (congrArg _ (if_pos settles))

theorem State.takeAtOff_none {s : State} {x : Axis} (h : (s.axis x).pending = none) : s.takeAtOff x = s := by
  unfold State.takeAtOff
  simp only [h]
  split
  · next p => cases p
  · rfl

theorem State.takeAtOff_elsewhere {s : State} {x : Axis} (h : (s.axis x).state ≠ .off) : s.takeAtOff x = s := by
  unfold State.takeAtOff
  simp only
  split
  · next off _ => exact absurd off h
  · rfl

/-- R23: a target that its clamp leaves alone raises no notice. -/
theorem targetLimited_of_clamped {p : AxisParams} {ref : Bool} {g : Goal} (h : clampGoal p ref g = g) :
    targetLimited p ref g = false := by
  cases g with
  | position t v =>
    have target : (if ref then clampInt p.softLo p.softHi t else t) = t := (Goal.position.inj h).1
    cases ref <;> simp_all [targetLimited]
  | velocity d v => rfl
  | brake k => rfl

/-- R47: in OFF a request that waited, inside its clamps and with no limit ACTIVE, starts the handshake. -/
theorem State.takeAtOff_starts {s : State} {x : Axis} {r : Request} (off : (s.axis x).state = .off)
    (p : (s.axis x).pending = some r) (unready : (s.axis x).ready = false) (free : s.comm.restartPending = false)
    (neg : (s.axis x).negLimit = false) (pos : (s.axis x).posLimit = false)
    (clamped : clampGoal (s.params x) (s.axis x).referenced r.goal = r.goal) :
    s.takeAtOff x = s.setAxis x { s.axis x with
      p := (s.axis x).e, f := 0, pending := some r, state := .starting .awaitReady, timer := some 500
      driveEnable := true, brakeRelease := false } := by
  have taken : s.takeAtOff x = (s.setAxis x { s.axis x with pending := none }).request x r := by
    simp only [State.takeAtOff, off, p]
  have same : (s.setAxis x { s.axis x with pending := none }).clamped x r = r := by
    simp [State.clamped, clamped]
  have quiet : (s.setAxis x { s.axis x with pending := none }).noticed x r.goal =
      s.setAxis x { s.axis x with pending := none } := by
    simp [State.noticed, targetLimited_of_clamped clamped]
  rw [taken, State.request_eq, same, quiet, if_neg (by rw [AxisUnit.lockRefuses_free (by simpa) (by simpa)]; simp),
    State.placeRequest_off r (by simpa) (by simpa) (by simpa)]
  simp only [State.setAxis_axis, State.setAxis_setAxis]

/-- Settles O29: the hold ends in SETTLING, or in OFF where the set time is 0; the set time ends in OFF, or in a new start. -/
theorem holdAndBrakeSet : Obligations.HoldAndBrakeSet := by
  intro s x r live a off
  refine ⟨fun holds time => ?_, fun holds time none => ?_, fun settles none => ?_,
    fun settles waits unready free neg pos clamped => ?_⟩
  · rw [exec_holdExpiry live holds, AxisUnit.toSettling, if_neg (by omega), State.takeAtOff_elsewhere (by simp)]
    rfl
  · rw [exec_holdExpiry live holds, AxisUnit.toSettling, if_pos time, State.takeAtOff_none (by rwa [State.setAxis_axis])]
    rfl
  · rw [exec_brakeSetExpiry live settles, State.takeAtOff_none (by rwa [State.setAxis_axis])]
    rfl
  · rw [exec_brakeSetExpiry live settles, State.takeAtOff_starts (r := r) (by rw [State.setAxis_axis]; rfl)
      (by rwa [State.setAxis_axis]) (by rwa [State.setAxis_axis]) (by rwa [State.setAxis_comm])
      (by rwa [State.setAxis_axis]) (by rwa [State.setAxis_axis])
      (by rw [State.setAxis_params, State.setAxis_axis]; exact clamped)]
    simp only [State.setAxis_axis, State.setAxis_setAxis]
    rfl

end Sys2Proof.Machine
end

-- ==== Proofs: the clearing of faults ====
section
/-! SUPPORT. The condition of each kind of fault (R97, R98, R173) and the judgement of a CLEAR_FAULT (R52, R172). -/

namespace Sys2Proof.Machine

/-! ## Conditions (R173) -/

theorem AxisUnit.atRest_iff (a : AxisUnit) : a.atRest = true ↔ a.state = .off ∨ a.state = .faulted := decide_eq_true_iff

theorem State.bothAtRest_iff (s : State) : s.bothAtRest = true ↔
    (s.slew.state = .off ∨ s.slew.state = .faulted) ∧ (s.rake.state = .off ∨ s.rake.state = .faulted) := by
  rw [State.bothAtRest, Bool.and_eq_true, AxisUnit.atRest_iff, AxisUnit.atRest_iff]

/-- R97: an entry conflicts when it is HELD, or BLOCK from a referenced slew. -/
theorem PeerSays.conflicts_iff (e : PeerSays) : e.conflicts = true ↔ e.adv = .held ∨ e.adv = .block ∧ e.slewRef = true := by
  unfold PeerSays.conflicts
  cases e.adv <;> simp

/-- R80, R97: what a status says of a zone conflicts unless the peer is OPERATIONAL and its entry for the zone does not. -/
theorem PeerStatus.says_conflicts_iff (st : PeerStatus) (zone : Nat) : (st.says zone).conflicts = true ↔
    (st.mode = 2 → ∀ e, st.zones.find? (fun e => decide (e.zone = zone)) = some e →
      e.adv = .held ∨ e.adv = .block ∧ st.slewRef = true) := by
  rw [PeerSays.conflicts_iff]
  unfold PeerStatus.says
  by_cases mode : st.mode = 2
  · rw [if_pos mode]
    cases found : st.zones.find? (fun e => decide (e.zone = zone)) with
    | none => simp
    | some e => simp [mode]
  · simp [mode]

/-- R97, R98: a sharing peer has a conflicting entry when its record is FRESH and its status conflicts. -/
theorem State.peerConflicts_iff (s : State) (zone station : Nat) : s.peerConflicts zone station = true ↔
    ∃ o st, findPeer s.peers station = some o ∧ o.freshness = .fresh ∧ o.status = some st ∧
      (st.says zone).conflicts = true := by
  unfold State.peerConflicts
  cases findPeer s.peers station with
  | none => simp
  | some o => cases fresh : o.freshness <;> cases status : o.status <;> simp [fresh, status]

theorem State.rowConflicts_eq_false_iff (s : State) (g : GuardRow) :
    s.rowConflicts g = false ↔ ∀ pr ∈ g.zone.peers, ¬ s.peerConflicts g.zone.number pr = true := by
  simp [State.rowConflicts]

/-- R98: with its zone, a ZONE_CONFLICT is gone once no row of that zone has a conflicting peer left. -/
theorem State.zoneConflict_gone_of_zone (s : State) {f : FaultFields} {z : Nat} (h : f.zone = some z) :
    s.conditionGone .zoneConflict (some f) = true ↔
      ∀ g ∈ s.zones.rows, g.zone.number = z → ∀ pr ∈ g.zone.peers, ¬ s.peerConflicts z pr = true := by
  simp only [State.conditionGone, Option.bind_some, h, List.all_eq_true, Bool.or_eq_true, Bool.not_eq_true',
    decide_eq_false_iff_not, State.rowConflicts_eq_false_iff, ← imp_iff_not_or]
  refine forall₃_congr fun g _ number => ?_
  rw [number]

/-- R98: without one, once no HELD row has a conflicting peer left. -/
theorem State.zoneConflict_gone_of_set (s : State) : s.conditionGone .zoneConflict none = true ↔
    ∀ g ∈ s.zones.rows, g.guard = .held → ∀ pr ∈ g.zone.peers, ¬ s.peerConflicts g.zone.number pr = true := by
  simp only [State.conditionGone, Option.bind_none, List.all_eq_true, Bool.or_eq_true, Bool.not_eq_true',
    decide_eq_false_iff_not, State.rowConflicts_eq_false_iff, ← imp_iff_not_or]

/-- R173: an ENVELOPE_BREACH is gone with both axes at rest and, for a REFERENCED slew, every touched zone HELD. -/
theorem State.envelopeBreach_gone_iff (s : State) (f : Option FaultFields) :
    s.conditionGone .envelopeBreach f = true ↔ s.bothAtRest = true ∧ (s.slew.referenced = true →
      ∀ g ∈ s.zones.rows, s.env.slew.lo ≤ g.zone.hi → g.zone.lo ≤ s.env.slew.hi → g.guard = .held) := by
  simp only [State.conditionGone, Bool.and_eq_true, Bool.or_eq_true, Bool.not_eq_true', List.all_eq_true, Range.touches,
    decide_eq_true_eq, decide_eq_false_iff_not, ← imp_iff_not_or, and_imp]
  cases s.slew.referenced <;> simp

/-- R173: the kinds that name an axis are gone with that axis at rest, or both where none is named. -/
theorem State.axisKinds_gone (s : State) (f : Option FaultFields) :
    ∀ k ∈ [FaultKind.following, .encoderSlip, .drive], s.conditionGone k f = s.namedAtRest (f.bind (·.axis)) := by
  simp [State.conditionGone]

/-! ## The judgement (R172) -/

/-- R161: a silence timer that has been started for a queue is not started again. -/
theorem Bus.startSilence_again (b : Bus) (o : Option LastOutcome) :
    ({ ({ b with statusPending := true } : Bus).startSilence with statusPending := true, outcome := o } : Bus).startSilence =
      ({ b with statusPending := true, outcome := o } : Bus).startSilence := by
  by_cases starts : ({ b with statusPending := true } : Bus).sendable ∧ b.silence = .stopped
  · have once : ({ b with statusPending := true } : Bus).startSilence =
        { b with statusPending := true, silence := .running 0 } := if_pos starts
    rw [once]
    exact (if_neg fun again => nomatch again.2).trans (if_pos starts).symm
  · have once : ({ b with statusPending := true } : Bus).startSilence = { b with statusPending := true } := if_neg starts
    rw [once]

/-- An outcome asks for a status itself, whatever asked for one just before (R160, R165). -/
theorem State.giveOutcome_requestStatus (s : State) (c n : Nat) (o : CmdOutcome) :
    s.requestStatus.giveOutcome c n o = s.giveOutcome c n o := by
  by_cases sends : s.sends = true
  · have sends' (b : Bus) : ({ s with bus := b } : State).sends = true := sends
    simp only [State.giveOutcome, State.requestStatus, sends, sends', if_true, Bus.startSilence_again]
  · have silent (b : Bus) : ({ s with bus := b } : State).sends = false := Bool.eq_false_iff.mpr sends
    simp only [State.giveOutcome, State.requestStatus, sends, silent, if_false, Bool.false_eq_true]

/-- R172: every held condition has gone. -/
theorem State.allGone_iff {s : State} {r : FaultRecord} (h : s.fault.record = some r) : s.allGone = true ↔
    s.conditionGone r.kind (some r.fields) = true ∧ ∀ k ∈ s.fault.alsoSeen, s.conditionGone k none = true := by
  simp [State.allGone, h]

/-- A command of a configured console is its owner's to judge on the state that has heard it (R157, R162). -/
theorem State.receiveCommand_of_commanded {s : State} {h : CommandHead} (c : s.commanded h) (kind : Byte) (args : List Byte)
    (owner : State → State × CmdOutcome) :
    s.receiveCommand kind h args true owner =
      (owner (s.heard (commandFrame kind h args))).1.giveOutcome h.sender.station.toNat h.tag.toNat
        (owner (s.heard (commandFrame kind h args))).2 :=
  (State.receive_of_hears c.1 _ fun t => t.command h true owner).trans (State.command_of_commanded c _ owner)

/-- A CLEAR_FAULT of a configured console gets its owner's outcome on the state that has heard it. -/
theorem exec_clearFault {s : State} {h : CommandHead} (c : s.commanded h) :
    exec (.clearFault h) s = .next ((s.heard (Instr.clearFault h).frame).ownClearFault.1.giveOutcome
      h.sender.station.toNat h.tag.toNat (s.heard (Instr.clearFault h).frame).ownClearFault.2) := by
  have live : s.inReset = false := c.1.1
  exact (live_of_not_inReset (·.rxClearFault h) live).trans
    (congrArg _ (State.receiveCommand_of_commanded c 6 [] State.ownClearFault))

/-- Settles O47: the outcome follows the record and its conditions, and each condition is the one that R173 gives. -/
theorem clearFaultTaken : Obligations.ClearFaultTaken := by
  intro s h r commanded row answered rest offed gone conflicts
  have conflict (z pr : Nat) : s.peerConflicts z pr = true ↔ conflicts z pr := by
    rw [State.peerConflicts_iff]
    simp only [PeerStatus.says_conflicts_iff, conflicts]
  have both : s.bothAtRest = true ↔ rest s.slew ∧ rest s.rake := s.bothAtRest_iff
  refine ⟨fun empty => ?_, fun held own set_ => ?_, fun held persists => ?_, fun f x named k kind => ?_, fun f z named => ?_,
    ?_, fun f k kind => ?_, fun f => ⟨?_, ?_, rfl, rfl, nofun, ?_⟩⟩
  · rw [exec_clearFault commanded, State.ownClearFault, if_pos (by simp [State.heard, empty])]
  · have all : (s.heard row.frame).allGone = true := (State.allGone_iff held).mpr ⟨own, set_⟩
    rw [exec_clearFault commanded, State.ownClearFault, if_neg (by simp [State.heard, held]), if_pos all]
    exact congrArg _ (State.giveOutcome_requestStatus _ _ _ _)
  · have some_ : ¬ (s.heard row.frame).allGone = true := fun all => persists ((State.allGone_iff held).mp all)
    rw [exec_clearFault commanded, State.ownClearFault, if_neg (by simp [State.heard, held]), if_neg some_]
  · simp only [gone, s.axisKinds_gone _ k kind, Option.bind_some, Option.bind_none, named]
    exact ⟨(s.axis x).atRest_iff, both⟩
  · simp only [gone, s.zoneConflict_gone_of_zone named, conflict]
  · simp only [gone, s.zoneConflict_gone_of_set, conflict]
  · have at_ : s.conditionGone k f = s.bothAtRest := by
      simp only [List.mem_cons, List.not_mem_nil, or_false] at kind
      rcases kind with rfl | rfl <;> rfl
    simp only [gone, at_, both]
  · simp [gone, State.conditionGone]
  · exact Iff.rfl
  · rw [← and_assoc, ← both]; exact s.envelopeBreach_gone_iff f

end Sys2Proof.Machine
end

-- ==== Proofs: the outputs and the STOP line ====
section
/-! SUPPORT. Every kind of change keeps the outputs those of the axis state (R39, R53) and the STOP line driven exactly while a
STOP_ALL kind is held (R170, R175): a reset leaves every output off and no kind held, and only the calm operations touch an output,
the record or the also-seen set else. -/

namespace Sys2Proof.Machine

/-! ## Outputs (R39, R53) -/

/-- A reading leaves the state and the outputs of its axis. -/
theorem AxisUnit.Reads.outputsOk {a b : AxisUnit} (h : a.Reads b) (o : a.outputsOk) : b.outputsOk := by
  unfold AxisUnit.outputsOk at o ⊢
  rwa [h.driveEnable, h.brakeRelease, h.speedRef, h.state]

theorem AxisUnit.outputsOk_cold (a b neg pos ready sw : Bool) : (AxisUnit.cold a b neg pos ready sw).outputsOk := by
  simp [AxisUnit.outputsOk, AxisUnit.cold, AxisState.enables, AxisState.releases]

/-- A warm restart puts the outputs where a cold reset does (R54, R180). -/
theorem AxisUnit.outputsOk_warm (a : AxisUnit) : a.warm.outputsOk :=
  AxisUnit.outputsOk_cold a.chA a.chB a.negLimit a.posLimit a.ready a.refSwitch

theorem Change.outputsOk {s t : State} (h : Change s t) (o : s.outputsOk) : t.outputsOk := by
  cases h with
  | calm k => exact k.outputsOk o
  | reads x k =>
    obtain ⟨slewOk, rakeOk⟩ := o
    cases x
    · exact ⟨k.outputsOk slewOk, rakeOk⟩
    · exact ⟨slewOk, k.outputsOk rakeOk⟩
  | beside slew rake =>
    unfold State.outputsOk
    rwa [slew, rake]
  | commissions => exact o
  | arms => exact o
  | cold => exact ⟨AxisUnit.outputsOk_cold .., AxisUnit.outputsOk_cold ..⟩
  | restarts => exact ⟨AxisUnit.outputsOk_warm _, AxisUnit.outputsOk_warm _⟩
  | starts => exact o
  | passes => exact o

/-! ## The STOP line (R170, R175) -/

/-- The law speaks of the fault unit alone. -/
theorem State.lineDriveOk.of_fault {s t : State} (o : s.lineDriveOk) (fault : t.fault = s.fault) : t.lineDriveOk := by
  unfold State.lineDriveOk
  rwa [fault]

/-- R177, R180: after a reset nothing is held and the line is not driven, whatever level is sensed. -/
theorem State.lineDriveOk_cold {s : State} {line : Bool} (fault : s.fault = FaultUnit.cold line) : s.lineDriveOk := by
  unfold State.lineDriveOk
  rw [fault]
  exact ⟨rfl, nofun⟩

/-- START's checks raise at most a notice (R178, R186). -/
theorem State.started_lineDriveOk {s : State} (level : BitVec 5) (o : s.lineDriveOk) : (s.started level).lineDriveOk := by
  unfold State.lineDriveOk
  rw [State.started_fault]
  exact o

theorem Change.lineDriveOk {s t : State} (h : Change s t) (o : s.lineDriveOk) : t.lineDriveOk := by
  cases h with
  | calm k => exact k.line o
  | reads x => exact o.of_fault (State.setAxis_fault _ x _)
  | beside _ _ _ _ _ fault => exact o.of_fault fault
  | commissions => exact o
  | arms => exact o
  | cold => exact State.lineDriveOk_cold rfl
  | restarts => exact State.lineDriveOk_cold rfl
  | starts level => exact State.started_lineDriveOk level o
  | passes => exact o

/-- Settles O55: a step is a chain of changes, each of which keeps both laws. -/
theorem outputsKept : Obligations.OutputsKept := fun _ _ e =>
  ⟨step_keeps (fun _ _ => Change.outputsOk) e, step_keeps (fun _ _ => Change.lineDriveOk) e⟩

/-! ## The state after reset -/

/-- Settles O60: after reset the outputs and the STOP line are at their cold values, both axes are still, no row, peer, conversion
or store operation exists, and the mode is START. -/
theorem resetMeetsLaws : Obligations.ResetMeetsLaws := by
  have outputs : State.reset.outputsOk := ⟨AxisUnit.outputsOk_cold .., AxisUnit.outputsOk_cold ..⟩
  have speeds : State.reset.speedsOk := State.speedsOk_still rfl fun x => by cases x <;> exact ⟨rfl, rfl, rfl, rfl⟩
  have claim : State.reset.oneClaim := Nat.zero_le 1
  have peers : State.reset.peerViewOk := ⟨Nat.zero_le 8, List.nodup_nil⟩
  have stepIndex : State.reset.stepIndexOk := by
    refine ⟨?_, fun left => absurd rfl left, nofun, nofun⟩
    rintro (armed | converting)
    · cases armed
    · cases converting
  exact ⟨outputs, State.lineDriveOk_cold rfl, claim, nofun, nofun, speeds, peers, stepIndex⟩

end Sys2Proof.Machine
end

-- ==== Proofs: the end of the brake release time ====
section
/-! SUPPORT. The end of the brake release time, for a request that is taken and for one that the lock refuses by then (R11, R42). -/

namespace Sys2Proof.Machine

/-! ## A refusal that finds the axis standing (R11, R48) -/

/-- A change within a stop's frame that leaves what both axes sense is a stop's change and no more. -/
theorem Frame.stopsOnly {s t : State} (f : Frame s t) (senses : ∀ x, (s.axis x).sensesSame (t.axis x)) : s.stopsOnly t :=
  ⟨f.pending, f.inReset, f.nv, f.comm, f.store, f.tickLeft, f.env, f.rows, f.chainOpen, f.fresh, senses .slew, senses .rake⟩

/-- A stop order finds nothing to do on an axis that stands with no request waiting, but that its search leg may end (R48). -/
theorem AxisUnit.HaltedTo.legEnds_of_standing {n : Nat} {k : StopKind} {a b : AxisUnit} (h : a.HaltedTo n k b)
    (stands : a.state ∈ [.tracking true, .off, .settling, .faulted]) (none : a.pending = none) : a.LegEnds b := by
  obtain ⟨eq, leg, waits⟩ := h
  have gone : b.pending = a.pending := waits.elim (fun e => e.trans none.symm) (·.2)
  rw [AxisUnit.halted_standing stands, gone] at eq
  exact ⟨eq, leg⟩

/-- What a refused request leaves of an axis `x` that stands with no request waiting, whoever asked: its own state whole but for
the search leg, and what the other axis senses. -/
structure RefusedStanding (x : Axis) (s t : State) : Prop where
  frame : Frame s t
  own : (s.axis x).LegEnds (t.axis x)
  senses : (s.axis (otherAxis x)).sensesSame (t.axis (otherAxis x))

theorem State.refuseRequest_tells (s : State) (x : Axis) {q : Requester} (h : q ≠ .sequencer) :
    Tells x s (s.refuseRequest x q) := by
  cases q with
  | sequencer => exact absurd rfl h
  | enableMonitor => exact s.tellStopped_tells x (some .enableMonitor)
  | positionUnit => exact s.tellStopped_tells x (some .positionUnit)

theorem State.refuseRequest_standing {s : State} {x : Axis} (q : Requester)
    (stands : (s.axis x).state ∈ [.tracking true, .off, .settling, .faulted]) (none : (s.axis x).pending = none) :
    RefusedStanding x s (s.refuseRequest x q) := by
  by_cases script : q = .sequencer
  · subst script
    have reacts : Reacts .quick s (s.refuseRequest x .sequencer) := s.report_reacts .limit (FaultFields.ofAxis x) (by decide)
    exact ⟨reacts.frame, (reacts.axis x).legEnds_of_standing stands none, (reacts.axis (otherAxis x)).sensesSame⟩
  · have tells := s.refuseRequest_tells x script
    exact ⟨tells.frame, tells.axis, tells.other ▸ .refl _⟩

/-! ## The release time ends (R42) -/

theorem exec_brakeReleaseExpiry {s : State} {x : Axis} (h : s.inReset = false)
    (releases : (s.axis x).state = .starting .releasing) : exec (.brakeReleaseExpiry x) s = .next (s.releaseExpired x) :=
  (live_of_not_inReset (·.releaseEnds x) h).trans (congrArg _ (if_pos releases))

/-- An axis in SETTLING for a brake set time `n`, its request dropped (R42, R46). -/
def AxisUnit.settled (n : Nat) (a : AxisUnit) : AxisUnit :=
  { a with
    pending := none, state := .settling, timer := some n, driveEnable := true, brakeRelease := false, speedRef := 0, v := 0
    mode := none, requester := none }

theorem AxisUnit.toSettling_eq_settled {n : Nat} (h : 0 < n) (a : AxisUnit) :
    ({ a with pending := none } : AxisUnit).toSettling n = a.settled n := if_neg (by omega)

theorem AxisUnit.settled_sensesSame (n : Nat) (a : AxisUnit) : a.sensesSame (a.settled n) := by repeat' constructor

/-- A request that the lock refuses by the end of the release time is dropped, with the brake applied again (R11, R42). -/
theorem State.releaseExpired_drops {s : State} {x : Axis} {r : Request} (p : (s.axis x).pending = some r)
    (refused : (s.axis x).lockRefuses r.goal = true) (time : 0 < (s.params x).setTime) :
    s.releaseExpired x = (s.setAxis x ((s.axis x).settled (s.params x).setTime)).refuseRequest x r.asker := by
  rw [← AxisUnit.toSettling_eq_settled time]
  simp [State.releaseExpired, p, refused]

/-- The refusal itself finds the axis in SETTLING: it leaves it there, and is a stop of the station at most (R42, R48). -/
theorem State.settled_refused (s : State) (x : Axis) (n : Nat) (q : Requester) :
    let t := (s.setAxis x ((s.axis x).settled n)).refuseRequest x q
    ((s.axis x).settled n).LegEnds (t.axis x) ∧ s.stopsOnly t := by
  have left : RefusedStanding x _ ((s.setAxis x ((s.axis x).settled n)).refuseRequest x q) :=
    State.refuseRequest_standing q (by simp [AxisUnit.settled]) (by simp [AxisUnit.settled])
  obtain ⟨frame, own, other⟩ := left
  rw [State.setAxis_axis] at own
  rw [State.setAxis_axis_other] at other
  refine ⟨own, ((Frame.ofSetAxis s x _).trans frame).stopsOnly fun y => ?_⟩
  rcases eq_or_eq_otherAxis x y with rfl | rfl
  · exact (AxisUnit.settled_sensesSame n _).trans own.sensesSame
  · exact other

/-- Settles O28: with no limit ACTIVE the request is taken; one toward an ACTIVE limit finds the axis in SETTLING when it is refused. -/
theorem brakeReleaseEnds : Obligations.BrakeReleaseEnds := by
  intro s x r live releases waits
  rw [exec_brakeReleaseExpiry live releases]
  refine ⟨fun neg pos => congrArg _ (State.releaseExpired_takes waits neg pos), fun d v goal active time => ?_⟩
  have refused : (s.axis x).lockRefuses r.goal = true :=
    (AxisUnit.lockRefuses_iff _ _).mpr (.inr ⟨d, by rw [goal]; rfl, active⟩)
  obtain ⟨⟨own, -⟩, only⟩ := s.settled_refused x (s.params x).setTime r.asker
  refine ⟨_, congrArg _ (State.releaseExpired_drops waits refused time), ?_⟩
  rw [own]
  refine ⟨rfl, rfl, rfl, rfl, rfl, rfl, rfl, rfl, only, fun script => ?_, fun other => ?_⟩
  · rw [script]
    exact State.report_held _ _ _
  · have tells := (s.setAxis x ((s.axis x).settled (s.params x).setTime)).refuseRequest_tells x other
    exact ⟨tells.fault.trans (State.setAxis_fault _ _ _), tells.other.trans (State.setAxis_axis_other _ _ _)⟩

end Sys2Proof.Machine
end

-- ==== Proofs: the start of a jog ====
section
/-! SUPPORT. An accepted JOG of an axis in OFF (R40, R145): its goal lies within the clamps and points away from every ACTIVE limit
that R143 lets stand, so that the request starts the handshake as it is. -/

namespace Sys2Proof.Machine

/-! ## A request that starts the handshake (R11, R22, R23, R40) -/

/-- R143: a run whose conditions pass does not point toward an ACTIVE limit. -/
theorem State.limit_of_runRefusal {s : State} {x : Axis} {d : Dir} (h : s.runRefusal x d = none) :
    (s.axis x).limit d = false := by
  unfold State.runRefusal at h
  repeat' (split at h; · cases h)
  exact Bool.eq_false_iff.mpr ‹_›

/-- R11: the lock lets a request pass that points toward a limit that is INACTIVE. -/
theorem AxisUnit.lockRefuses_toward {a : AxisUnit} {g : Goal} {d : Dir} (dir : g.dir a.p = some d) (free : a.limit d = false) :
    a.lockRefuses g = false := by
  rw [Bool.eq_false_iff, Ne, AxisUnit.lockRefuses_iff]
  rintro (⟨neg, pos, -⟩ | ⟨e, aims, active⟩)
  · cases d
    · exact Bool.noConfusion (free.symm.trans neg)
    · exact Bool.noConfusion (free.symm.trans pos)
  · cases dir.symm.trans aims
    exact Bool.noConfusion (free.symm.trans active)

/-- R40: an axis in OFF starts its handshake with a request that its clamps leave alone and the lock lets pass. -/
theorem State.request_of_clamped {s : State} {x : Axis} {r : Request} (off : (s.axis x).state = .off)
    (unready : (s.axis x).ready = false) (free : s.comm.restartPending = false)
    (clamped : clampGoal (s.params x) (s.axis x).referenced r.goal = r.goal)
    (passes : (s.axis x).lockRefuses r.goal = false) :
    s.request x r = s.setAxis x { s.axis x with
      p := (s.axis x).e, f := 0, pending := some r, state := .starting .awaitReady, timer := some 500
      driveEnable := true, brakeRelease := false } := by
  have same : s.clamped x r = r := by simp [State.clamped, clamped]
  have quiet : s.noticed x r.goal = s := by simp [State.noticed, targetLimited_of_clamped clamped]
  rw [State.request_eq, same, quiet, if_neg (by simp [passes]), State.placeRequest_off r off free unready]

/-! ## The goal of a jog (R145) -/

/-- What a JOG asks for (R145): the soft limit of a REFERENCED axis, or motion in the direction. -/
def State.jogGoal (s : State) (x : Axis) (d : Dir) (v : Nat) : Goal :=
  if (s.axis x).referenced then .position ((s.params x).soft d) (s.jogSpeed x v) else .velocity d (s.jogSpeed x v)

/-- The run that a JOG starts (R145). -/
def State.jogRun (s : State) (x : Axis) (d : Dir) : Run :=
  .jog x d (if (s.axis x).referenced then .position else .velocity)

theorem State.jogSpeed_eq (s : State) (x : Axis) (v : Nat) :
    s.jogSpeed x v = if x = .slew ∧ (s.axis x).referenced = false then (s.params x).vcreep
      else max (s.params x).vcreep (min (s.params x).vjog v) := by
  cases x <;> simp [State.jogSpeed, State.axis]

/-- R22: with Vcreep ≤ Vjog ≤ Vmax the jog speed lies within the clamps. -/
theorem State.clampSpeed_jogSpeed {s : State} {x : Axis} (creep : (s.params x).vcreep ≤ (s.params x).vjog)
    (top : (s.params x).vjog ≤ (s.params x).vmax) (v : Nat) :
    clampSpeed (s.params x) (s.jogSpeed x v) = s.jogSpeed x v := by
  rw [State.jogSpeed_eq, clampSpeed]
  split <;> omega

/-- R23: a soft limit lies within the soft limits. -/
theorem AxisParams.clampInt_soft {p : AxisParams} (h : p.softLo ≤ p.softHi) (d : Dir) :
    clampInt p.softLo p.softHi (p.soft d) = p.soft d := by
  cases d <;> simp [clampInt, AxisParams.soft, h]

theorem State.clampGoal_jogGoal {s : State} {x : Axis} (creep : (s.params x).vcreep ≤ (s.params x).vjog)
    (top : (s.params x).vjog ≤ (s.params x).vmax) (soft : (s.params x).softLo ≤ (s.params x).softHi) (d : Dir) (v : Nat) :
    clampGoal (s.params x) (s.axis x).referenced (s.jogGoal x d v) = s.jogGoal x d v := by
  have speed := State.clampSpeed_jogSpeed creep top v
  unfold State.jogGoal
  split
  · next ref => simp only [clampGoal, ref, if_true, AxisParams.clampInt_soft soft, speed]
  · simp only [clampGoal, speed]

/-- R145: short of the soft limit a jog asks for motion in its direction. -/
theorem State.jogGoal_dir {s : State} {x : Axis} {d : Dir} (short : s.atSoftLimit x d = false) (v : Nat) :
    (s.jogGoal x d v).dir (s.axis x).p = some d := by
  unfold State.jogGoal
  split
  · next ref =>
    show dirOf ((s.params x).soft d - (s.axis x).p) = some d
    rw [dirOf_eq_some_iff]
    cases d
    · have above : (s.params x).softLo < (s.axis x).p := by simpa [State.atSoftLimit, ref] using short
      exact Int.sign_eq_neg_one_of_neg (Int.sub_neg_of_lt above)
    · have below : (s.axis x).p < (s.params x).softHi := by simpa [State.atSoftLimit, ref] using short
      exact Int.sign_eq_one_of_pos (Int.sub_pos_of_lt below)
  · rfl

/-- R40, R145: a jog of an axis in OFF, with its goal within the clamps and clear of the lock, whole. -/
theorem State.startJog_off {s : State} {x : Axis} {d : Dir} {v : Nat} (off : (s.axis x).state = .off)
    (unready : (s.axis x).ready = false) (free : s.comm.restartPending = false)
    (clamped : clampGoal (s.params x) (s.axis x).referenced (s.jogGoal x d v) = s.jogGoal x d v)
    (passes : (s.axis x).lockRefuses (s.jogGoal x d v) = false) :
    s.startJog x d v = ({ s with mon := { s.mon with run := s.jogRun x d } } : State).setAxis x { s.axis x with
      p := (s.axis x).e, f := 0, pending := some { goal := s.jogGoal x d v, asker := .enableMonitor }
      state := .starting .awaitReady, timer := some 500, driveEnable := true, brakeRelease := false } :=
  State.request_of_clamped (s := { s with mon := { s.mon with run := s.jogRun x d } })
    (r := { goal := s.jogGoal x d v, asker := .enableMonitor }) off unready free clamped passes

/-! ## The judgement (R143 to R145) -/

/-- A JOG of a configured console gets its owner's outcome on the state that has heard it. -/
theorem exec_jog {s : State} {h : CommandHead} (c : s.commanded h) (x : Axis) (d : Dir) (speed : BitVec 24) :
    let row : Instr := .jog h (axisByte x) (dirByte d) speed
    exec row s = .next (((s.heard row.frame).ownJog x d speed.toNat).1.giveOutcome h.sender.station.toNat h.tag.toNat
      ((s.heard row.frame).ownJog x d speed.toNat).2) := by
  have axis : axisOfByte (axisByte x) = some x := by cases x <;> decide
  have dir : dirOfByte (dirByte d) = some d := by cases d <;> decide
  refine (live_of_not_inReset (·.rxJog h (axisByte x) (dirByte d) speed) c.1.1).trans (congrArg _ ?_)
  simp only [State.rxJog, axis, dir, Option.isSome_some, Bool.and_self]
  exact State.receiveCommand_of_commanded c 4 _ _

/-- A JOG whose conditions pass is done at the soft limit, and otherwise starts its run (R145). -/
theorem State.ownJog_passed {s : State} {x : Axis} {d : Dir} (h : s.runRefusal x d = none) (v : Nat) :
    s.ownJog x d v = if s.atSoftLimit x d then (s, .done) else (s.startJog x d v, .accepted) := by
  rw [← State.judgeRun_eq] at h
  simp only [State.ownJog, h]

/-- Settles O44: the conditions pass, so the soft limit decides, and a goal within the clamps starts the handshake as it is. -/
theorem jogStarts : Obligations.JogStarts := by
  intro s h x d speed commanded passed row a par soft there v goal
  have ⟨_, _, free, _⟩ := commanded
  let u := s.heard row.frame
  have ends : u.atSoftLimit x d = true ↔ a.referenced = true ∧ there := by
    cases d <;> exact (Bool.and_eq_true _ _).to_iff.trans (and_congr_right' decide_eq_true_iff)
  have judged : u.ownJog x d speed.toNat = _ := State.ownJog_passed (s := u) passed speed.toNat
  rw [exec_jog commanded, judged]
  refine ⟨fun ref past => ?_, fun short creep top softs off unready => ?_⟩
  · rw [if_pos (ends.mpr ⟨ref, past⟩)]
  · have away : u.atSoftLimit x d = false := by
      rw [Bool.eq_false_iff, Ne, ends, not_and]
      exact fun ref => short.resolve_left (by simp [ref])
    have asked : u.jogGoal x d speed.toNat = goal := by
      unfold State.jogGoal
      rw [State.jogSpeed_eq]
      cases d <;> rfl
    have clamped := State.clampGoal_jogGoal (s := u) creep top softs d speed.toNat
    have passes := AxisUnit.lockRefuses_toward (State.jogGoal_dir away speed.toNat) (State.limit_of_runRefusal (s := u) passed)
    intro run
    rw [if_neg (by simp [away]), State.startJog_off (s := u) off unready free clamped passes, asked]
    rfl

end Sys2Proof.Machine
end

-- ==== Proofs: what the reports of a tick keep ====
section
/-! SUPPORT. The parts of a tick (R20, R65), and what the delivery of its reports keeps: the rows of the guard table, the kinds
latched, and V = 0 of an axis that has it. -/

namespace Sys2Proof.Machine

/-! ## What a tick delivers -/

/-- What the reports of a tick keep: the guard table's rows, the kinds latched, and V = 0. -/
structure Aftermath (s t : State) : Prop where
  rows : t.zones.rows = s.zones.rows
  held : ∀ k ∈ s.fault.held, k ∈ t.fault.held
  still : ∀ x, (s.axis x).v = 0 → (t.axis x).v = 0

theorem Aftermath.refl (s : State) : Aftermath s s := ⟨rfl, fun _ => id, fun _ => id⟩

theorem Aftermath.trans {s t u : State} (h : Aftermath s t) (k : Aftermath t u) : Aftermath s u :=
  ⟨k.rows.trans h.rows, fun j m => k.held j (h.held j m), fun x e => k.still x (h.still x e)⟩

/-- A change beside the rows, the latched kinds and the axes. -/
theorem Aftermath.beside {s t : State} (rows : t.zones.rows = s.zones.rows) (held : t.fault.held = s.fault.held)
    (slew : t.slew = s.slew) (rake : t.rake = s.rake) : Aftermath s t := by
  refine ⟨rows, fun k m => held ▸ m, fun x e => ?_⟩
  cases x
  · exact (congrArg AxisUnit.v slew).trans e
  · exact (congrArg AxisUnit.v rake).trans e

theorem Aftermath.ofSeqPeers (s : State) (q : Sequencer) (ps : List PeerRecord) :
    Aftermath s { s with seq := q, peers := ps } := .beside rfl rfl rfl rfl

theorem Aftermath.ofSetAxis {s : State} {y : Axis} {a : AxisUnit} (h : (s.axis y).v = 0 → a.v = 0) :
    Aftermath s (s.setAxis y a) := by
  refine ⟨by simp, fun k m => by rwa [State.setAxis_fault], fun x e => ?_⟩
  rcases eq_or_eq_otherAxis y x with rfl | rfl
  · rw [State.setAxis_axis]; exact h e
  · rw [State.setAxis_axis_other]; exact e

theorem AxisUnit.LegEnds.v {a b : AxisUnit} (h : a.LegEnds b) : b.v = a.v := by rw [h.1]

theorem AxisUnit.toSettling_v (n : Nat) (a : AxisUnit) : (a.toSettling n).v = 0 := by
  unfold AxisUnit.toSettling; split <;> rfl

theorem AxisUnit.HaltedTo.still {n : Nat} {k : StopKind} {a b : AxisUnit} (h : a.HaltedTo n k b) (e : a.v = 0) : b.v = 0 := by
  rw [h.eq]
  obtain ⟨-, q⟩ | ⟨_, -, q⟩ | ⟨-, q⟩ | ⟨-, q⟩ | ⟨-, q⟩ := a.halted_cases n k <;> rw [q]
  case inr.inr.inl => rfl
  case inr.inr.inr.inl => exact AxisUnit.toSettling_v n a
  all_goals exact e

theorem Tells.aftermath {y : Axis} {s t : State} (h : Tells y s t) : Aftermath s t := by
  refine ⟨h.frame.rows, fun k m => by rwa [h.fault], fun x e => ?_⟩
  rcases eq_or_eq_otherAxis y x with rfl | rfl
  · rw [h.axis.v]; exact e
  · rw [h.other]; exact e

theorem State.requestStatus_aftermath (s : State) : Aftermath s s.requestStatus := .beside rfl rfl rfl rfl

/-- Latching adds to the kinds held (R167). -/
theorem State.latch_keepsHeld (s : State) (k : FaultKind) (f : FaultFields) :
    ∀ j ∈ s.fault.held, j ∈ (s.latch k f).fault.held := by
  intro j m
  unfold State.latch
  split
  · next none_ =>
    rw [State.requestStatus_fault]
    simp only [FaultUnit.held, none_] at m
    exact List.mem_cons_of_mem _ m
  · next q some_ =>
    split
    · exact m
    · rw [State.requestStatus_fault]
      simp only [FaultUnit.held, some_, List.mem_cons] at m
      simp only [FaultUnit.held, FaultUnit.withDrive, some_, List.mem_cons]
      exact m.imp id (insertKind_keeps k j _)

theorem State.report_aftermath (s : State) {k : FaultKind} (f : FaultFields) (hk : k ≠ .duplicateStation) :
    Aftermath s (s.report k f) := by
  have reacts := s.report_reacts k f hk
  refine ⟨reacts.frame.rows, fun j m => ?_, fun x => (reacts.axis x).still⟩
  rw [State.report_fault, State.clearSent_held]
  exact s.latch_keepsHeld k f j m

/-! ## Requests -/

theorem Aftermath.setPending (s : State) (y : Axis) (r : Option Request) :
    Aftermath s (s.setAxis y { s.axis y with pending := r }) := .ofSetAxis id

theorem Aftermath.setLeg (s : State) (y : Axis) (l : Option Leg) :
    Aftermath s (s.setAxis y { s.axis y with leg := l }) := .ofSetAxis id

theorem Aftermath.takeGoal (s : State) (y : Axis) (r : Request) : Aftermath s (s.setAxis y ((s.axis y).takeGoal r)) :=
  .ofSetAxis id

theorem State.refuseRequest_aftermath (s : State) (y : Axis) (q : Requester) : Aftermath s (s.refuseRequest y q) := by
  cases q
  · exact s.report_aftermath _ (by decide)
  · exact (s.tellStopped_tells y (some .enableMonitor)).aftermath
  · exact (s.tellStopped_tells y (some .positionUnit)).aftermath

theorem State.releaseExpired_aftermath (s : State) (y : Axis) : Aftermath s (s.releaseExpired y) := by
  unfold State.releaseExpired
  simp only
  split
  · exact .ofSetAxis id
  · split
    · exact (Aftermath.ofSetAxis fun _ => AxisUnit.toSettling_v _ _).trans (State.refuseRequest_aftermath _ _ _)
    · exact .takeGoal s y _

theorem State.readyTaken_aftermath (s : State) (y : Axis) : Aftermath s (s.readyTaken y) := by
  have lifts : Aftermath s (s.setAxis y ((s.axis y).enter (.starting .releasing) (some (s.params y).releaseTime))) :=
    .ofSetAxis id
  unfold State.readyTaken
  simp only
  split
  · exact lifts.trans (State.releaseExpired_aftermath _ y)
  · exact lifts

theorem State.startUp_aftermath (s : State) (y : Axis) (r : Request) : Aftermath s (s.startUp y r) := by
  unfold State.startUp
  simp only
  split
  · refine Aftermath.trans (.ofSetAxis ?_) (State.readyTaken_aftermath _ y)
    exact id
  · exact .ofSetAxis id

theorem State.placeRequest_aftermath (s : State) (y : Axis) (r : Request) : Aftermath s (s.placeRequest y r) := by
  unfold State.placeRequest
  simp only
  split
  · split
    · exact .refl s
    · exact s.startUp_aftermath y r
  · exact .setPending s y _
  · exact .takeGoal s y r
  · exact .setPending s y _
  · exact .setPending s y _
  · exact (s.tellStopped_tells y _).aftermath

theorem State.request_aftermath (s : State) (y : Axis) (r : Request) : Aftermath s (s.request y r) := by
  have noticed : Aftermath s (s.noticed y r.goal) := by
    rw [State.noticed_eq]; exact .beside rfl rfl rfl rfl
  rw [State.request_eq]
  split
  · exact noticed.trans (State.refuseRequest_aftermath _ _ _)
  · exact noticed.trans (State.placeRequest_aftermath _ _ _)

/-! ## The post-motion sequence -/

theorem State.takeAtOff_aftermath (s : State) (y : Axis) : Aftermath s (s.takeAtOff y) := by
  unfold State.takeAtOff
  simp only
  split
  · exact (Aftermath.setPending s y none).trans (State.request_aftermath _ _ _)
  · exact .refl s

theorem State.zeroHold_aftermath (s : State) (y : Axis) : Aftermath s (s.zeroHold y) := by
  unfold State.zeroHold State.holdExpired
  split
  · exact (Aftermath.ofSetAxis fun _ => AxisUnit.toSettling_v _ _).trans (State.takeAtOff_aftermath _ y)
  · exact .refl s

theorem State.takeAtStopEnd_aftermath (s : State) (y : Axis) : Aftermath s (s.takeAtStopEnd y) := by
  unfold State.takeAtStopEnd
  simp only
  split
  · split
    · exact (Aftermath.setPending s y none).trans (State.refuseRequest_aftermath _ _ _)
    · exact .takeGoal s y _
  · exact .refl s

theorem State.postMotion_aftermath (s : State) (y : Axis) (t : TurnReport) : Aftermath s (s.postMotion y t) := by
  have taken : Aftermath s (if t.stopEnd then s.takeAtStopEnd y else s) := by
    split
    · exact s.takeAtStopEnd_aftermath y
    · exact .refl s
  unfold State.postMotion
  simp only
  split
  · exact taken.trans (State.zeroHold_aftermath _ y)
  · exact taken

/-! ## The sequencer -/

theorem State.giveTarget_aftermath (s : State) (y : Axis) : Aftermath s (s.giveTarget y) := by
  unfold State.giveTarget
  split
  · split
    · exact (Aftermath.ofSeqPeers s _ s.peers).trans (State.request_aftermath _ _ _)
    · exact .refl s
  · exact .refl s

/-- A new phase or place of the sequencer, shown at once. -/
theorem Aftermath.shown (s : State) (q : Sequencer) (ps : List PeerRecord) :
    Aftermath s ({ s with seq := q, peers := ps } : State).requestStatus := .beside rfl rfl rfl rfl

theorem State.startMoving_aftermath (s : State) : Aftermath s s.startMoving := by
  have begun := Aftermath.shown s { s.seq with phase := .moving } s.peers
  unfold State.startMoving
  simp only
  split
  · exact begun
  · exact begun.trans (State.giveTarget_aftermath _ _)
  · exact begun.trans (State.giveTarget_aftermath _ _)
  · split
    · exact begun.trans ((State.giveTarget_aftermath _ _).trans (State.giveTarget_aftermath _ _))
    · exact begun.trans ((Aftermath.ofSeqPeers _ _ _).trans (State.giveTarget_aftermath _ _))
    · exact begun.trans ((Aftermath.ofSeqPeers _ _ _).trans (State.giveTarget_aftermath _ _))

theorem State.finishStep_aftermath (s : State) : Aftermath s s.finishStep := by
  unfold State.finishStep
  split
  · exact .beside rfl rfl rfl rfl
  · exact .shown s _ _

theorem State.advance_aftermath (n : Nat) (s : State) : Aftermath s (State.advance n s) := by
  induction n generalizing s with
  | zero => exact .refl s
  | succ n ih =>
    unfold State.advance
    split
    · split
      · split
        · exact s.startMoving_aftermath.trans (ih _)
        · exact .refl s
      · split
        · exact (Aftermath.shown s _ s.peers).trans (ih _)
        · exact .refl s
      · split
        · exact s.finishStep_aftermath.trans (ih _)
        · exact .refl s
      · exact .refl s
      · exact .refl s
    · exact .refl s

theorem State.seqArrived_aftermath (s : State) (y : Axis) : Aftermath s (s.seqArrived y) := by
  unfold State.seqArrived
  split
  · simp only
    refine Aftermath.trans ?_ (State.advance_aftermath _ _)
    split
    · exact (Aftermath.ofSeqPeers s _ s.peers).trans (State.giveTarget_aftermath _ _)
    · exact .ofSeqPeers s _ s.peers
  · exact .refl s

/-! ## Deliveries -/

theorem State.zeroVelocity_aftermath (s : State) (y : Axis) : Aftermath s (s.zeroVelocity y) := by
  unfold State.zeroVelocity
  split
  · exact (Aftermath.setLeg s y _).trans (State.request_aftermath _ _ _)
  · exact (Aftermath.setLeg s y _).trans (State.request_aftermath _ _ _)
  · exact .refl s

theorem State.arrived_aftermath (s : State) (y : Axis) (q : Option Requester) : Aftermath s (s.arrived y q) := by
  unfold State.arrived
  split
  · exact s.seqArrived_aftermath y
  · split
    · split
      · exact .beside rfl rfl rfl rfl
      · exact .refl s
    · exact .refl s
  · exact .refl s
  · exact .refl s

theorem State.deliver_aftermath (s : State) (y : Axis) (t : TurnReport) : Aftermath s (s.deliver y t) := by
  have told : Aftermath s
      (if t.zeroVelocity = some .positionUnit then (s.arrived y t.arrival).zeroVelocity y else s.arrived y t.arrival) := by
    split
    · exact (s.arrived_aftermath y _).trans (State.zeroVelocity_aftermath _ y)
    · exact s.arrived_aftermath y _
  unfold State.deliver
  simp only
  split
  · exact told.trans (State.stopEnded_tells _ y).aftermath
  · exact told

theorem State.reportTurn_aftermath (s : State) (y : Axis) (t : TurnReport) : Aftermath s (s.reportTurn y t) := by
  unfold State.reportTurn
  simp only
  split <;> split
  · exact (s.report_aftermath _ (by decide)).trans (State.report_aftermath _ _ (by decide))
  · exact s.report_aftermath _ (by decide)
  · exact s.report_aftermath _ (by decide)
  · exact .refl s

/-- R70: a turn that reports a breach latches ENVELOPE_BREACH. -/
theorem State.reportTurn_breach (s : State) (y : Axis) {t : TurnReport} (h : t.breach.isSome = true) :
    FaultKind.envelopeBreach ∈ (s.reportTurn y t).fault.held := by
  obtain ⟨z, breach⟩ := Option.isSome_iff_exists.mp h
  unfold State.reportTurn
  simp only [breach]
  split
  · exact (State.report_aftermath _ _ (by decide)).held _ (State.report_held _ _ _)
  · exact State.report_held _ _ _

/-! ## The parts of a tick -/

/-- The state after both turns of a tick (R20, R65). -/
def State.turned (s : State) : State := ({ s with tickLeft := Config.tickPeriod } : State).tickRake.1.tickSlew.1

/-- The faults that both turns report, after the zone guard's event (R70, R35). -/
def State.tickReported (s : State) : State :=
  ((s.turned.zoneTick s).reportTurn .rake (s.tickTurn .rake).2.1).reportTurn .slew (s.tickTurn .slew).2.1

theorem State.profileTick_eq (s : State) : s.profileTick =
    (((s.tickReported.postMotion .rake (s.tickTurn .rake).2.1).postMotion .slew (s.tickTurn .slew).2.1).deliver .rake
      (s.tickTurn .rake).2.1).deliver .slew (s.tickTurn .slew).2.1 := rfl

theorem State.tickReported_aftermath (s : State) : Aftermath (s.turned.zoneTick s) s.tickReported :=
  (State.reportTurn_aftermath _ _ _).trans (State.reportTurn_aftermath _ _ _)

theorem State.profileTick_aftermath (s : State) : Aftermath s.tickReported s.profileTick := by
  rw [State.profileTick_eq]
  exact (((State.postMotion_aftermath _ _ _).trans (State.postMotion_aftermath _ _ _)).trans
    (State.deliver_aftermath _ _ _)).trans (State.deliver_aftermath _ _ _)

theorem State.profileTick_env (s : State) : s.profileTick.env = s.turned.env := (State.afterTurns_calm s.turned s _ _).env

end Sys2Proof.Machine
end

-- ==== Proofs: the slew under the envelope check ====
section
/-! SUPPORT. The envelope check (R66 to R73): an axis that a turn leaves moving took an option that passed, or its turn reports
ENVELOPE_BREACH; the zone guard's event keeps every touched row that is HELD; and a slew at rest whose first step fails stays. -/

namespace Sys2Proof.Machine

/-! ## The turn of an axis that moves on (R66 to R72) -/

theorem AxisState.profiled_iff (st : AxisState) : st.profiled = true ↔ (∃ b, st = .tracking b) ∨ ∃ k, st = .stopping k := by
  cases st <;> simp [AxisState.profiled]

theorem AxisUnit.hasMotion_of_profiled {a : AxisUnit} (h : a.state.profiled = true) : a.hasMotion = true := by
  unfold AxisUnit.hasMotion
  rcases (AxisState.profiled_iff _).mp h with ⟨b, e⟩ | ⟨k, e⟩ <;> rw [e]

/-- A turn leaves the axis `b` moving on: by the advance `d`, in its axis state, with its count and reference state. -/
structure AxisUnit.MovesOn (a : AxisUnit) (d : Advance) (b : AxisUnit) : Prop where
  state : b.state = a.state
  p : b.p = d.p
  v : b.v = d.v
  e : b.e = a.e
  referenced : b.referenced = a.referenced

/-- A turn that leaves a velocity has ended neither move, nor brake, nor stop. -/
theorem AxisUnit.finishTurn_movesOn {par : AxisParams} {a : AxisUnit} {d : Advance} {done : Bool}
    (h : (a.finishTurn par d done).v ≠ 0) : a.MovesOn d (a.finishTurn par d done) := by
  have moved : a.MovesOn d { a with
      p := d.p, f := d.f, v := d.v, tickV := d.v, speedRef := speedReference par d.p a.e d.v } := ⟨rfl, rfl, rfl, rfl, rfl⟩
  unfold AxisUnit.finishTurn at h ⊢
  simp only at h ⊢
  split at h
  · split at h
    · exact absurd rfl h
    · next short => rw [if_neg short]; exact moved
  · split at h
    · exact absurd rfl h
    · next going =>
      rw [if_neg going]
      split at h
      · split at h
        · next ends => exact absurd ends h
        · next short => rw [if_neg short]; exact moved
      · exact moved

/-- R69, R70: the option taken has passed, or the check says that it failed. -/
theorem AxisUnit.choose_judged (par : AxisParams) (a : AxisUnit) (f : Advance → Bool) :
    f (a.choose par f).taken = true ∨ (a.choose par f).failed = true := by
  unfold AxisUnit.choose
  simp only
  split
  · next pass => exact .inl pass
  · split
    · exact .inr rfl
    · cases f (a.advanceBy (a.brakingOption par)) <;> simp

theorem AxisUnit.turnReport_breach {par : AxisParams} {a : AxisUnit} {d : Advance} {done failed : Bool} (z : Option Nat)
    (h : failed = true) (v : d.v ≠ 0) : (a.turnReport par d done failed z).breach.isSome = true := by
  simp [AxisUnit.turnReport, h, v]

/-- R69, R70: an axis that a turn under the profile leaves with a velocity moves on by an option that passed the check, or the turn
reports a breach. -/
theorem AxisUnit.turn_judged {par : AxisParams} {a : AxisUnit} {f : Advance → Bool} {z : Advance → Option Nat}
    (running : a.state.profiled = true) (h : (a.turn par f z).1.v ≠ 0) :
    ∃ d, a.MovesOn d (a.turn par f z).1 ∧ (f d = true ∨ (a.turn par f z).2.1.breach.isSome = true) := by
  have ⟨moves, done, report⟩ : a.MovesOn (a.choose par f).taken (a.turn par f z).1 ∧ ∃ done, (a.turn par f z).2.1 =
      a.turnReport par (a.choose par f).taken done (a.choose par f).failed (z (a.choose par f).taken) := by
    rcases (AxisState.profiled_iff _).mp running with ⟨b, tracking⟩ | ⟨k, stopping⟩
    · cases complete : a.complete par with
      | true =>
        have ends : (a.turn par f z).1 = a.finishTurn par a.stand true := by simp [AxisUnit.turn, tracking, complete]
        rw [ends] at h
        exact absurd (AxisUnit.finishTurn_movesOn h).v h
      | false =>
        rw [AxisUnit.turn_tracking f z tracking complete] at h ⊢
        exact ⟨AxisUnit.finishTurn_movesOn h, _, rfl⟩
    · rw [AxisUnit.turn_stopping f z stopping] at h ⊢
      exact ⟨AxisUnit.finishTurn_movesOn h, _, rfl⟩
  refine ⟨_, moves, (a.choose_judged par f).imp id fun failed => ?_⟩
  rw [report]
  exact AxisUnit.turnReport_breach _ failed (moves.v ▸ h)

/-! ## The guard table under an envelope (R67, R85) -/

/-- Every row that an envelope touches is HELD (R67). -/
def HoldsTouched (env : Range) (rows : List GuardRow) : Prop :=
  ∀ g ∈ rows, env.touches g.zone = true → g.guard = .held

theorem HoldsTouched.of_slewPasses {rows : List GuardRow} {hi : Int} {env : Range} (h : slewPasses rows hi env = true) :
    HoldsTouched env rows := by
  intro g hg touched
  have row := List.all_eq_true.mp h g hg
  simp only [touched, Bool.not_true, Bool.false_or, Bool.and_eq_true, decide_eq_true_eq] at row
  exact row.1

/-- R93, R95: a slew that moves releases no zone that its current envelope touches. -/
theorem State.releases_touched {s : State} {z : Zone} (moving : s.slew.hasMotion = true)
    (touched : s.env.slew.touches z = true) : s.releases z = false := by
  unfold State.releases
  split
  · simp [touched]
  · simp [moving]

theorem State.tickRow_zone (s : State) (r : GuardRow) : (s.tickRow r).zone = r.zone := by
  unfold State.tickRow
  simp only
  split <;> (try split) <;> rfl

theorem State.tickRow_held {s : State} {r : GuardRow} (held : r.guard = .held) (kept : s.releases r.zone = false) :
    (s.tickRow r).guard = .held := by
  simp [State.tickRow, held, kept]

theorem HoldsTouched.tickRow {s : State} {rows : List GuardRow} (h : HoldsTouched s.env.slew rows)
    (moving : s.slew.hasMotion = true) : HoldsTouched s.env.slew (rows.map s.tickRow) := by
  intro g hg touched
  obtain ⟨r, hr, rfl⟩ := List.mem_map.mp hg
  rw [State.tickRow_zone] at touched
  exact State.tickRow_held (h r hr touched) (State.releases_touched moving touched)

/-- R86: the row found is a candidate. -/
theorem leastIndex_candidate (key : GuardRow → Int) (rows : List GuardRow) (i : Nat) (best : Option (Nat × Int)) {j : Nat}
    {k : Int} (h : leastIndex key rows i best = some (j, k)) :
    best = some (j, k) ∨ ∃ n r, j = i + n ∧ rows[n]? = some r ∧ r.candidate = true := by
  induction rows generalizing i best with
  | nil => exact .inl h
  | cons r rs ih =>
    rcases ih _ _ h with found | ⟨n, q, rfl, hq, hc⟩
    · by_cases c : r.candidate = true
      · rcases best with _ | ⟨b, kb⟩
        · simp only [c, if_true, Option.some.injEq, Prod.mk.injEq] at found
          exact .inr ⟨0, r, found.1.symm, rfl, c⟩
        · by_cases lt : key r < kb
          · simp only [c, if_true, lt, Option.some.injEq, Prod.mk.injEq] at found
            exact .inr ⟨0, r, found.1.symm, rfl, c⟩
          · exact .inl (by simpa [c, lt] using found)
      · exact .inl (by simpa [c] using found)
    · exact .inr ⟨n + 1, q, by omega, hq, hc⟩

/-- R86: the selection chooses no HELD row. -/
theorem State.chosen_not_held {s : State} {i : Nat} (h : s.chosen = some i) {r : GuardRow} (hr : s.zones.rows[i]? = some r) :
    r.guard ≠ .held := by
  unfold State.chosen at h
  split at h
  · cases h
  · obtain ⟨⟨j, k⟩, found, rfl⟩ := Option.map_eq_some_iff.mp h
    obtain none_ | ⟨n, q, e, hq, candidate⟩ := leastIndex_candidate _ _ _ _ found
    · cases none_
    · rw [Nat.zero_add] at e
      subst e
      cases hr.symm.trans hq
      intro held
      simp [GuardRow.candidate, held] at candidate

theorem State.claimOrWait_zone (s : State) (r : GuardRow) : (s.claimOrWait r).zone = r.zone := by
  unfold State.claimOrWait; split <;> rfl

/-- A change of a row that is not HELD leaves the touched rows HELD. -/
theorem HoldsTouched.modify {env : Range} {rows : List GuardRow} (h : HoldsTouched env rows) (i : Nat)
    {f : GuardRow → GuardRow} (zone : ∀ r, (f r).zone = r.zone) (free : ∀ r, rows[i]? = some r → r.guard ≠ .held) :
    HoldsTouched env (rows.modify i f) := by
  intro g hg touched
  obtain ⟨n, hn⟩ := List.mem_iff_getElem?.mp hg
  rw [List.getElem?_modify] at hn
  obtain ⟨r, hr, rfl⟩ := Option.map_eq_some_iff.mp hn
  by_cases e : i = n
  · subst e
    simp only [if_true, zone] at touched
    exact absurd (h r (List.mem_of_getElem? hr) touched) (free r hr)
  · simp only [e, if_false] at touched ⊢
    exact h r (List.mem_of_getElem? hr) touched

theorem State.select_holdsTouched {s : State} {env : Range} (h : HoldsTouched env s.zones.rows) :
    HoldsTouched env s.select.zones.rows := by
  unfold State.select
  split
  · split
    · next i chosen => exact h.modify i s.claimOrWait_zone fun r hr => State.chosen_not_held chosen hr
    · exact h
  · exact h

theorem State.announce_frame (s b : State) : Frame s (s.announce b) := by
  unfold State.announce
  split
  · exact .refl s
  · exact s.requestStatus_frame

/-- R85: the zone guard's event of a tick that leaves the slew moving keeps every touched row HELD. -/
theorem State.zoneTick_holdsTouched {s : State} (b : State) (h : HoldsTouched s.env.slew s.zones.rows)
    (moving : s.slew.hasMotion = true) : HoldsTouched s.env.slew (s.zoneTick b).zones.rows := by
  have ticked : HoldsTouched s.env.slew
      ({ s with zones := { s.zones with rows := s.zones.rows.map s.tickRow } } : State).zones.rows := h.tickRow moving
  unfold State.zoneTick
  rw [(State.announce_frame _ b).rows, (State.judgeZoneWait_frame _).rows]
  exact State.select_holdsTouched ticked

/-! ## The law of the slew envelope (R70) -/

theorem State.zoneTick_slew (s b : State) : (s.zoneTick b).slew = s.slew := by rw [State.zoneTick_eq]

/-- R55, R57: a slew that moves on writes the envelope of the option it took. -/
theorem State.turned_envelope {s : State} {r : Record} {d : Advance} (record : s.comm.record = some r)
    (running : s.slew.state.profiled = true) (m : s.slew.MovesOn d s.turned.slew) : s.turned.env.slew = s.slewRangeOf d := by
  have written : s.turned.env.slew = slewEnvelope (s.params .slew) s.turned.slew.referenced s.turned.slew.p s.turned.slew.e
      (s.turned.slew.envV s.slew.state) := by
    unfold State.turned State.tickSlew State.slewEnvelopes
    simp only [State.tickRake, record]
    rfl
  rw [written, m.referenced, m.p, m.e, AxisUnit.envV, running, if_pos rfl, m.v]
  rfl

/-- R67, R70: after the turns of a tick a moving slew touches HELD rows alone, or its turn has reported a breach. -/
theorem State.turned_judged {s : State} {r : Record} (record : s.comm.record = some r)
    (running : s.slew.state.profiled = true) (v : s.turned.slew.v ≠ 0) :
    s.turned.slew.hasMotion = true ∧
      (HoldsTouched s.turned.env.slew s.turned.zones.rows ∨ (s.tickTurn .slew).2.1.breach.isSome = true) := by
  have slew : s.turned.slew = (s.tickTurn .slew).1 := rfl
  rw [slew] at v
  obtain ⟨d, m, judged⟩ := AxisUnit.turn_judged running v
  refine ⟨AxisUnit.hasMotion_of_profiled ((congrArg AxisState.profiled m.state).trans running),
    judged.imp (fun passed => ?_) id⟩
  rw [State.turned_envelope record running m]
  exact .of_slewPasses passed

/-- Settles O22: the option that the slew took passed on HELD rows, which the zone guard's event and the reports keep, or its breach
was latched. -/
theorem lawOfSlewEnvelope : Obligations.LawOfSlewEnvelope := by
  intro s t r live record running tick moving g hg lo hi
  cases (exec_profileTick live).symm.trans tick
  have reported := s.tickReported_aftermath
  have delivered := s.profileTick_aftermath
  have v : s.turned.slew.v ≠ 0 := fun still =>
    moving (delivered.still .slew (reported.still .slew ((congrArg AxisUnit.v (State.zoneTick_slew _ s)).trans still)))
  obtain ⟨motion, holds | breach⟩ := State.turned_judged record running v
  · left
    rw [delivered.rows, reported.rows] at hg
    rw [s.profileTick_env] at lo hi
    exact State.zoneTick_holdsTouched s holds motion g hg (decide_eq_true ⟨lo, hi⟩)
  · right
    exact delivered.held _ (State.reportTurn_breach _ .slew breach)

/-! ## A slew at rest before a zone it does not hold (R69, R73) -/

/-- A tick whose turns report nothing is its turns and the zone guard's event. -/
theorem State.profileTick_quiet {s : State} (rake : (s.tickTurn .rake).2.1 = .quiet) (slew : (s.tickTurn .slew).2.1 = .quiet) :
    s.profileTick = s.turned.zoneTick s := by
  rw [State.profileTick_eq, State.tickReported, rake, slew]
  rfl

/-- R67: an option that touches a row that is not HELD fails. -/
theorem slewPasses_not_held {rows : List GuardRow} (hi : Int) {env : Range} {g : GuardRow} (hg : g ∈ rows)
    (guard : g.guard ≠ .held) (touched : env.touches g.zone = true) : slewPasses rows hi env = false :=
  Bool.eq_false_iff.mpr fun pass => guard (HoldsTouched.of_slewPasses pass g hg touched)

/-- An axis that stands on a whole count stays there by an advance of 0. -/
theorem AxisUnit.advanced_still {a : AxisUnit} (f : a.f = 0) :
    a.advanced 0 = { p := a.p, f := 0, v := 0, arrived := false } := by
  simp [AxisUnit.advanced, f]

theorem AxisUnit.advanceBy_still {a : AxisUnit} {t : Int} {g : Nat} (m : a.mode = some (.position t g)) (f : a.f = 0)
    (lo : posMin ≤ a.p) (hi : a.p ≤ posMax) : a.advanceBy 0 = a.advanced 0 := by
  have range : a.InRange 0 := by simp [AxisUnit.InRange, f, lo, hi]
  refine AxisUnit.advanceBy_underway range m fun away => ?_
  have product : (t * 65536 - (a.p * 65536 + a.f + 0)) * (t - a.p).sign = 65536 * |t - a.p| := by
    rw [f, ← Int.sign_mul_self_eq_abs]; ring
  rw [product]
  exact Int.mul_pos (by decide) (abs_pos.mpr away)

/-- R66: the braking option of an axis at V = 0 is 0. -/
theorem AxisUnit.brakingOption_still (par : AxisParams) {a : AxisUnit} (v : a.v = 0) : a.brakingOption par = 0 := by
  simp [AxisUnit.brakingOption, slowBy, signed, v]

/-- R69, R73: a POSITION move whose first step fails the check is not begun: the braking option 0 leaves the axis standing. -/
theorem AxisUnit.turn_waits {a : AxisUnit} {par : AxisParams} {f : Advance → Bool} (z : Advance → Option Nat) {t : Int}
    {g : Nat} (running : a.state = .tracking false) (mode : a.mode = some (.position t g)) (v : a.v = 0) (whole : a.f = 0)
    (away : t ≠ a.p) (lo : posMin ≤ a.p) (hi : a.p ≤ posMax) (fails : f (a.advanceBy (a.candidate par)) = false) :
    (a.turn par f z).1 = a.finishTurn par (a.advanced 0) false ∧
      (a.turn par f z).2.1 = a.turnReport par (a.advanced 0) false (a.choose par f).failed (z (a.advanced 0)) := by
  refine AxisUnit.turn_underWay z (.inl running) (AxisUnit.complete_position mode (by omega)) ?_
  rw [AxisUnit.choose_taken, if_neg (by simp [fails]), AxisUnit.brakingOption_still par v,
    AxisUnit.advanceBy_still mode whole lo hi]

/-- R70: with no velocity left there is no breach to report. -/
theorem AxisUnit.turnReport_waits {a : AxisUnit} {par : AxisParams} {t : Int} {g : Nat} (failed : Bool) (z : Option Nat)
    (running : a.state = .tracking false) (mode : a.mode = some (.position t g)) (whole : a.f = 0)
    (near : (a.p - a.e).natAbs ≤ par.followLimit) : a.turnReport par (a.advanced 0) false failed z = .quiet := by
  rw [AxisUnit.advanced_still whole]
  simp [AxisUnit.turnReport, TurnReport.quiet, followingError, running, mode, near]

theorem State.turned_velLeft {s : State} {r : Record} (record : s.comm.record = some r) :
    s.turned.env.velLeft = s.turned.slew.v := by
  unfold State.turned State.tickSlew State.slewEnvelopes
  simp only [State.tickRake, record]

/-- Settles O23: the first step's option fails on the row, so the slew takes the braking option 0, and the tick reports nothing. -/
theorem slewWaitsForZone : Obligations.SlewWaitsForZone := by
  intro s r target vseg g live record rest running mode _ v whole away lo hi near hg guard touched _
  have params : s.params .slew = r.slew := State.params_of_record record .slew
  have candidate := AxisUnit.candidate_position (s.params .slew) running mode
  have fails : slewPasses s.zones.rows s.tickRake.1.env.rakeHi
      (s.slewRangeOf (s.slew.advanceBy (s.slew.candidate (s.params .slew)))) = false := by
    rw [candidate, params, v]
    exact slewPasses_not_held _ hg guard touched
  obtain ⟨turn, report⟩ := AxisUnit.turn_waits
    (f := fun adv => slewPasses s.zones.rows s.tickRake.1.env.rakeHi (s.slewRangeOf adv))
    (fun adv => slewBreachZone s.zones.rows s.tickRake.1.env.rakeHi (s.slewRangeOf adv))
    running mode v whole away lo hi fails
  rw [AxisUnit.turnReport_waits _ _ running mode whole (by rw [params]; exact near)] at report
  have slew : s.turned.slew = s.slew.finishTurn (s.params .slew) (s.slew.advanced 0) false := turn
  obtain ⟨st, ⟨v', -, p', f', -⟩, kept⟩ := AxisUnit.finishTurn_tracking (s.params .slew) 0 running
  rw [← slew] at st v' p' f' kept
  rw [AxisUnit.advanced_still whole] at p' f'
  refine ⟨_, exec_profileTick live, ?_⟩
  rw [State.profileTick_quiet (congrArg (·.2.1) (AxisUnit.turn_atRest rest _ _ _)) report, State.zoneTick_eq]
  exact ⟨p', f', v', (kept (by simp [mode])).trans mode, st, rfl, (State.turned_velLeft record).trans v'⟩

end Sys2Proof.Machine
end

-- ==== Proofs: what a command leaves of the guard table and of the peer view ====
section
/-! SUPPORT. What every command but the profile tick, a reset, a restart and the end of START leaves of the guard table and of
the peer view: each HELD row stands (R94, R101), and the law of the peer view is kept (R104). With the tick, the resets and
the end of START, every step keeps at most one row CLAIMING (R86) and the law of the peer view. -/

namespace Sys2Proof.Machine

/-! ## Steady changes -/

/-- Going from `s` to `t` leaves every HELD row in its place, and keeps the law of the peer view. -/
structure Steady (s t : State) : Prop where
  held : ∀ (i : Nat) (g : GuardRow), s.zones.rows[i]? = some g → g.guard = .held → t.zones.rows[i]? = some g
  peers : s.peerViewOk → t.peerViewOk

theorem Steady.refl (s : State) : Steady s s := ⟨fun _ _ row _ => row, id⟩

theorem Steady.trans {s t u : State} (h : Steady s t) (k : Steady t u) : Steady s u :=
  ⟨fun i g row held => k.held i g (h.held i g row held) held, fun ok => k.peers (h.peers ok)⟩

/-- A change that leaves the rows and the records. -/
theorem Steady.beside {s t : State} (rows : t.zones.rows = s.zones.rows) (peers : t.peers = s.peers) : Steady s t :=
  ⟨fun _ _ row _ => rows ▸ row, fun ok => by unfold State.peerViewOk; rwa [peers]⟩

/-- A calm operation that leaves the rows. -/
theorem Steady.ofCalm {s t : State} (h : Calm s t) (rows : t.zones.rows = s.zones.rows) : Steady s t :=
  ⟨fun _ _ row _ => rows ▸ row, h.peerViewOk⟩

/-- A calm operation after which each HELD row stands. -/
theorem Steady.ofCalmHeld {s t : State} (h : Calm s t)
    (held : ∀ (i : Nat) (g : GuardRow), s.zones.rows[i]? = some g → g.guard = .held → t.zones.rows[i]? = some g) :
    Steady s t := ⟨held, h.peerViewOk⟩

theorem Steady.ofBus (s : State) (b : Bus) : Steady s { s with bus := b } := .beside rfl rfl

theorem Steady.ofSetAxis (s : State) (x : Axis) (a : AxisUnit) : Steady s (s.setAxis x a) :=
  .beside (by rw [State.setAxis_zones]) (State.setAxis_peers s x a)

/-- A change of rows that leaves the HELD ones. -/
theorem Steady.ofRows (s : State) (f : GuardRow → GuardRow) (n : Nat) (h : ∀ g, g.guard = .held → f g = g) :
    Steady s { s with zones := { rows := s.zones.rows.map f, waitElapsed := n } } := by
  refine ⟨fun i g row held => ?_, id⟩
  rw [List.getElem?_map, row, Option.map_some, h g held]

/-! ## Motion, faults and ends -/

theorem State.requestStatus_steady (s : State) : Steady s s.requestStatus := .beside rfl rfl

theorem State.giveOutcome_steady (s : State) (c n : Nat) (o : CmdOutcome) : Steady s (s.giveOutcome c n o) :=
  .ofCalm (s.giveOutcome_calm c n o) (s.giveOutcome_frame c n o).rows

theorem State.setReferenced_steady (s : State) (x : Axis) (r : Bool) : Steady s (s.setReferenced x r) := by
  rw [State.setReferenced_eq]
  exact (Steady.ofSetAxis s x _).trans (.ofBus _ _)

theorem State.stopAxis_steady (s : State) (x : Axis) (k : StopKind) : Steady s (s.stopAxis x k) :=
  .ofCalm (s.stopAxis_calm x k) (s.stopAxis_frame x k).rows

theorem State.faultAxis_steady (s : State) (x : Axis) : Steady s (s.faultAxis x) :=
  .ofCalm (s.faultAxis_calm x)
    ((((Frame.ofSetAxis s x _).trans (State.tellStopped_tells _ x _).frame).trans (State.tellStopped_tells _ x _).frame).rows)

theorem State.seqToIdle_steady (s : State) : Steady s s.seqToIdle := .ofCalm s.seqToIdle_calm rfl

theorem State.seqToAborted_steady (s : State) : Steady s s.seqToAborted :=
  .ofCalm s.seqToAborted_calm (State.judgeZoneWait_frame _).rows

theorem State.endRun_steady (s : State) : Steady s s.endRun := .ofCalm s.endRun_calm s.endRun_frame.rows

theorem State.reactions_steady (s : State) (k : StopKind) (o : Option CmdOutcome) :
    Steady s (((s.stopBoth k).endConversion o).endRun) :=
  .ofCalm (((s.stopBoth_calm k).trans (State.endConversion_calm _ o)).trans (State.endRun_calm _))
    (s.reactions_react k o).frame.rows

/-- R101: the claims dropped, a HELD row stands. -/
theorem GuardRow.dropClaim_held {g : GuardRow} (h : g.guard = .held) : g.dropClaim = g := by
  simp [GuardRow.dropClaim, h]

theorem State.enterIsolated_steady (s : State) : Steady s s.enterIsolated :=
  (Steady.ofRows s GuardRow.dropClaim 0 fun _ => GuardRow.dropClaim_held).trans (.beside rfl rfl)

theorem State.faultReactions_steady (s : State) (k : FaultKind) : Steady s (s.faultReactions k) := by
  unfold State.faultReactions
  simp only
  split
  · exact (s.reactions_steady .quick _).trans (State.enterIsolated_steady _)
  · exact s.reactions_steady .quick _

/-- A report of any kind, DUPLICATE_STATION included (R169, R171). -/
theorem State.report_steady (s : State) (k : FaultKind) (f : FaultFields) : Steady s (s.report k f) := by
  have latched : Steady s ((s.latch k f).clearSent k) :=
    .ofCalm ((s.latch_calm k f).trans (State.clearSent_calm _ k))
      ((s.latch_alike k f).1.trans ((s.latch k f).clearSent_alike k).1).rows
  unfold State.report State.senseOwn
  split
  · exact (latched.trans (State.faultReactions_steady _ k)).trans (State.reactions_steady _ .quick _)
  · exact latched.trans (State.faultReactions_steady _ k)

theorem State.request_steady (s : State) (x : Axis) (r : Request) : Steady s (s.request x r) :=
  .ofCalm (s.request_calm x r) (s.request_aftermath x r).rows

/-! ## Position units and handshake -/

theorem State.encoderSlip_steady (s : State) (x : Axis) : Steady s (s.encoderSlip x) :=
  (s.setReferenced_steady x false).trans (State.report_steady _ _ _)

theorem State.transition_steady (s : State) (x : Axis) (a b : Bool) : Steady s (s.transition x a b) := by
  unfold State.transition
  simp only
  split
  · exact .refl s
  · exact (Steady.ofSetAxis s x _).trans (State.encoderSlip_steady _ x)
  · split
    · exact (Steady.ofSetAxis s x _).trans (State.encoderSlip_steady _ x)
    · exact .ofSetAxis s x _

theorem State.takeMark_steady (s : State) (x : Axis) : Steady s (s.takeMark x) := by
  have captured (a : AxisUnit) (n : Nat) : Steady s { s.setAxis x a with fresh := n } :=
    (Steady.ofSetAxis s x a).trans (.beside rfl rfl)
  unfold State.takeMark
  simp only
  split
  · exact (((captured _ _).trans (.ofSetAxis _ x _)).trans (State.setReferenced_steady _ x true)).trans
      (State.stopAxis_steady _ x _)
  · exact (captured _ _).trans (State.encoderSlip_steady _ x)
  · exact captured _ _
  · exact captured _ _

theorem State.switchCloses_steady (s : State) : Steady s s.switchCloses := by
  have closed : Steady s { s with rake := { s.rake with refSwitch := true } } := .beside rfl rfl
  unfold State.switchCloses
  split
  · exact .refl s
  · simp only
    split
    · exact closed.trans (State.takeMark_steady _ _)
    · exact closed

theorem State.switchOpens_steady (s : State) : Steady s s.switchOpens := by
  unfold State.switchOpens
  split
  · simp only
    split
    · refine Steady.trans ?_ (State.request_steady _ _ _)
      exact .beside rfl rfl
    · exact .beside rfl rfl
  · exact .refl s

theorem State.secondLimit_steady (s : State) (x : Axis) : Steady s (s.secondLimit x) :=
  ((Steady.ofSetAxis s x _).trans (State.report_steady _ _ _)).trans (State.report_steady _ _ _)

theorem State.limitMet_steady (s : State) (x : Axis) : Steady s (s.limitMet x) := by
  unfold State.limitMet
  split
  · exact (Steady.ofSetAxis s x _).trans (State.request_steady _ _ _)
  · exact s.report_steady _ _
  · exact s.report_steady _ _
  all_goals exact s.secondLimit_steady x

theorem State.limitActive_steady (s : State) (x : Axis) (d : Dir) : Steady s (s.limitActive x d) := by
  unfold State.limitActive
  split
  · exact .refl s
  · simp only
    split
    · exact (Steady.ofSetAxis s x _).trans (State.limitMet_steady _ x)
    · exact .ofSetAxis s x _

theorem State.readyTaken_steady (s : State) (x : Axis) : Steady s (s.readyTaken x) :=
  .ofCalm (s.readyTaken_calm x) (s.readyTaken_aftermath x).rows

theorem State.readyActive_steady (s : State) (x : Axis) : Steady s (s.readyActive x) := by
  unfold State.readyActive
  split
  · exact .refl s
  · simp only
    split
    · exact (Steady.ofSetAxis s x _).trans (State.readyTaken_steady _ x)
    · exact .ofSetAxis s x _

theorem State.driveFault_steady (s : State) (x : Axis) : Steady s (s.driveFault x) :=
  (s.faultAxis_steady x).trans (State.report_steady _ _ _)

theorem State.readyLimitEnds_steady (s : State) (x : Axis) : Steady s (s.readyLimitEnds x) := by
  unfold State.readyLimitEnds
  split
  · exact s.driveFault_steady x
  · exact .refl s

theorem State.releaseEnds_steady (s : State) (x : Axis) : Steady s (s.releaseEnds x) := by
  unfold State.releaseEnds
  split
  · exact .ofCalm (s.releaseExpired_calm x) (s.releaseExpired_aftermath x).rows
  · exact .refl s

theorem State.takeAtOff_steady (s : State) (x : Axis) : Steady s (s.takeAtOff x) :=
  .ofCalm (s.takeAtOff_calm x) (s.takeAtOff_aftermath x).rows

theorem State.holdEnds_steady (s : State) (x : Axis) : Steady s (s.holdEnds x) := by
  unfold State.holdEnds
  split
  · exact (Steady.ofSetAxis s x _).trans (State.takeAtOff_steady _ x)
  · exact .refl s

theorem State.setEnds_steady (s : State) (x : Axis) : Steady s (s.setEnds x) := by
  unfold State.setEnds
  split
  · exact (Steady.ofSetAxis s x _).trans (State.takeAtOff_steady _ x)
  · exact .refl s

theorem State.readyInactive_steady (s : State) (x : Axis) : Steady s (s.readyInactive x) := by
  unfold State.readyInactive
  split
  · simp only
    split
    · exact (Steady.ofSetAxis s x _).trans (State.driveFault_steady _ x)
    · exact .ofSetAxis s x _
  · exact .refl s

theorem State.chainOpens_steady (s : State) : Steady s s.chainOpens := by
  have opened : Steady s { s with chainOpen := true } := .beside rfl rfl
  unfold State.chainOpens
  split
  · exact .refl s
  · exact ((opened.trans (State.faultAxis_steady _ .rake)).trans (State.faultAxis_steady _ .slew)).trans
      (State.report_steady _ _ _)

/-! ## The sequencer and the enable -/

theorem Steady.ofSeq (s : State) (q : Sequencer) : Steady s { s with seq := q } := .beside rfl rfl

theorem Steady.ofMon (s : State) (m : EnableMonitor) : Steady s { s with mon := m } := .beside rfl rfl

theorem State.judgeZoneWait_steady (s : State) : Steady s s.judgeZoneWait :=
  .ofCalm s.judgeZoneWait_calm s.judgeZoneWait_frame.rows

theorem State.testConds_steady (s : State) (f : Nat → Bool) : Steady s (s.testConds f) := .beside rfl rfl

theorem State.startStep_steady (s : State) (k : Nat) : Steady s (s.startStep k) := .beside rfl rfl

theorem State.runPhases_steady (s : State) : Steady s s.runPhases :=
  .ofCalm s.runPhases_calm (State.advance_aftermath _ s).rows

theorem State.stopRequested_frame (s : State) : Frame s s.stopRequested := by
  have rake : Frame s (if s.seq.rakeMove = .requested then s.stopAxis .rake .controlled else s) := by
    split
    · exact s.stopAxis_frame .rake _
    · exact .refl s
  unfold State.stopRequested
  simp only
  split
  · exact rake.trans (State.stopAxis_frame _ .slew _)
  · exact rake

theorem State.stopRequested_steady (s : State) : Steady s s.stopRequested :=
  .ofCalm s.stopRequested_calm s.stopRequested_frame.rows

theorem State.peerAborts_steady (s : State) : Steady s s.peerAborts := by
  have noticed : Steady s (s.raiseNotice .peerAborted) := .beside rfl rfl
  exact (noticed.trans (State.stopRequested_steady _)).trans (State.seqToAborted_steady _)

theorem State.seqArrival_steady (s : State) (n : Nat) : Steady s (s.seqArrival n) := by
  unfold State.seqArrival
  split
  · split
    · split
      · exact s.peerAborts_steady
      · exact (s.testConds_steady _).trans (State.runPhases_steady _)
    · exact .refl s
  · exact .refl s

theorem State.holdOffExpires_steady (s : State) : Steady s s.holdOffExpires := by
  unfold State.holdOffExpires
  split
  · simp only
    generalize (if s.mon.present then SeqState.running else SeqState.paused) = st
    have begun := ((Steady.ofSeq s { s.seq with state := st, holdOff := none }).trans (State.startStep_steady _ 0)).trans
      (State.judgeZoneWait_steady _)
    split
    · exact begun.trans (State.peerAborts_steady _)
    · exact begun.trans ((State.testConds_steady _ _).trans (State.runPhases_steady _))
  · exact .refl s

theorem State.finishStep_steady (s : State) : Steady s s.finishStep :=
  .ofCalm s.finishStep_calm s.finishStep_aftermath.rows

theorem State.dwellEnds_steady (s : State) : Steady s s.dwellEnds := by
  unfold State.dwellEnds
  split
  · have dwelt := Steady.ofSeq s { s.seq with dwellElapsed := s.currentStep.dwellMs }
    exact (dwelt.trans (State.finishStep_steady _)).trans (State.runPhases_steady _)
  · exact .refl s

theorem State.stepTimeEnds_steady (s : State) : Steady s s.stepTimeEnds := by
  unfold State.stepTimeEnds
  split
  · exact (Steady.ofSeq s _).trans (State.report_steady _ _ _)
  · exact .refl s

theorem State.pause_steady (s : State) : Steady s s.pause := by
  unfold State.pause
  split
  · exact (((Steady.ofSeq s _).trans (State.requestStatus_steady _)).trans (State.judgeZoneWait_steady _)).trans
      (State.stopRequested_steady _)
  · exact .refl s

theorem State.resumeAxis_steady (s : State) (q : Sequencer) (x : Axis) : Steady s (s.resumeAxis q x) := by
  have given : Steady s (s.giveTarget x) := .ofCalm (s.giveTarget_calm x) (s.giveTarget_aftermath x).rows
  unfold State.resumeAxis
  split
  · exact given
  · split
    · exact given
    · exact .refl s
  all_goals exact .refl s

theorem State.resume_steady (s : State) : Steady s s.resume := by
  unfold State.resume
  split
  · have begun := ((Steady.ofSeq s { s.seq with state := .running }).trans (State.requestStatus_steady _)).trans
      (State.judgeZoneWait_steady _)
    simp only
    split
    · exact begun.trans ((State.testConds_steady _ _).trans (State.runPhases_steady _))
    · exact begun.trans (((State.resumeAxis_steady _ _ _).trans (State.resumeAxis_steady _ _ _)).trans
        (State.runPhases_steady _))
    all_goals exact begun
  · exact .refl s

theorem State.annul_steady (s : State) : Steady s s.annul := by
  unfold State.annul
  split
  · split
    · exact s.seqToIdle_steady.trans (State.giveOutcome_steady _ _ _ _)
    · exact s.seqToIdle_steady
  · exact .refl s

theorem State.discard_steady (s : State) : Steady s s.discard := by
  unfold State.discard
  split
  · exact .refl s
  · exact s.annul_steady
  · exact s.annul_steady
  · exact s.annul_steady
  · exact .refl s

theorem State.enableTaken_steady (s : State) (snd : Sender) (targets : BitVec 32) : Steady s (s.enableTaken snd targets) := by
  have present := Steady.ofMon s { s.mon with present := true, timer := some Config.enableTime }
  unfold State.enableTaken
  split
  · simp only
    split
    · exact present
    · exact present.trans (State.resume_steady _)
  · exact .refl s

theorem State.enableEnds_steady (s : State) : Steady s s.enableEnds := by
  unfold State.enableEnds State.endRunStopping
  split
  · refine ((Steady.ofMon s { s.mon with present := false, timer := none }).trans ?_).trans (State.pause_steady _)
    split
    · exact .refl _
    · exact (State.endRun_steady _).trans (State.stopAxis_steady _ _ _)
  · exact .refl s

theorem State.lineAsserts_steady (s : State) : Steady s s.lineAsserts := by
  have asserted : Steady s { s with fault := { s.fault with lineAsserted := true } } := .beside rfl rfl
  unfold State.lineAsserts
  split
  · exact .refl s
  · simp only
    split
    · exact asserted.trans (State.reactions_steady _ .quick _)
    · exact asserted

theorem State.lineReleases_steady (s : State) : Steady s s.lineReleases := by
  unfold State.lineReleases
  split
  · exact .refl s
  · exact .beside rfl rfl

/-! ## The zone guard -/

/-- A change of a row that is not HELD leaves the HELD rows. -/
theorem State.modRow_held {s : State} {i : Nat} (f : GuardRow → GuardRow)
    (free : ∀ r, s.zones.rows[i]? = some r → r.guard ≠ .held) {j : Nat} {g : GuardRow} (row : s.zones.rows[j]? = some g)
    (held : g.guard = .held) : (s.modRow i f).zones.rows[j]? = some g :=
  (List.getElem?_modify_ne f _ (by rintro rfl; exact free g row held)).trans row

/-- R86: the row that a selection changes is not HELD. -/
theorem State.select_steady (s : State) : Steady s s.select := by
  refine .ofCalmHeld s.select_calm fun i g row held => ?_
  unfold State.select
  split
  · split
    · next chosen => exact State.modRow_held _ (fun _ => State.chosen_not_held chosen) row held
    · exact row
  · exact row

theorem State.selectFor_steady (s : State) (n : Nat) : Steady s (s.selectFor n) := by
  unfold State.selectFor
  split
  · exact s.select_steady
  · exact .refl s

theorem State.announce_steady (s b : State) : Steady s (s.announce b) :=
  .ofCalm (s.announce_calm b) (s.announce_frame b).rows

theorem State.reportConflicts_steady (n : Nat) (rows : List GuardRow) (s : State) : Steady s (s.reportConflicts n rows) := by
  induction rows generalizing s with
  | nil => exact .refl s
  | cons r rs ih =>
    unfold State.reportConflicts
    split
    · exact (s.report_steady _ _).trans (ih _)
    · exact ih s

theorem State.withdrawNotClear_steady (s : State) (n : Nat) : Steady s (s.withdrawNotClear n) :=
  .ofRows s _ _ fun g held => by simp [held]

theorem State.withdrawStale_steady (s : State) (n : Nat) : Steady s (s.withdrawStale n) :=
  .ofRows s _ _ fun g held => by simp [held]

/-- R94: a HELD row stands whatever a status shows. -/
theorem State.zoneArrival_steady (s : State) (n : Nat) : Steady s (s.zoneArrival n) := by
  unfold State.zoneArrival
  refine (s.reportConflicts_steady n s.zones.rows).trans (((Steady.trans (State.withdrawNotClear_steady _ n) ?_).trans
    (State.judgeZoneWait_steady _)).trans (State.announce_steady _ _))
  split
  · exact State.selectFor_steady _ n
  · exact .refl _

/-- R94: and when a peer leaves FRESH. -/
theorem State.zoneFreshness_steady (s : State) (n : Nat) (l : Bool) : Steady s (s.zoneFreshness n l) := by
  have withdrawn : Steady s (if l then s.withdrawStale n else s) := by
    split
    · exact s.withdrawStale_steady n
    · exact .refl s
  unfold State.zoneFreshness
  simp only
  exact withdrawn.trans (((State.selectFor_steady _ n).trans (State.judgeZoneWait_steady _)).trans
    (State.announce_steady _ _))

/-- The first row found by a test passes it. -/
theorem rowIndex_some {f : GuardRow → Bool} {rows : List GuardRow} {i : Nat} (h : rowIndex f rows = some i) :
    ∃ r, rows[i]? = some r ∧ f r = true := by
  obtain ⟨lt, passes, -⟩ := List.findIdx?_eq_some_iff_getElem.mp h
  exact ⟨rows[i], List.getElem?_eq_getElem lt, passes⟩

theorem State.windowExpired_steady (s : State) : Steady s s.windowExpired := by
  unfold State.windowExpired
  split
  · exact .refl s
  · next i found =>
    obtain ⟨r, row, claiming⟩ := rowIndex_some found
    refine ((Steady.trans (.ofCalmHeld (.ofZones s _ fun o => ?_) fun j g h held => ?_) (State.select_steady _)).trans
      (State.judgeZoneWait_steady _)).trans (State.announce_steady _ _)
    · refine (countP_modify_le _ _ _ _ fun q h => ?_).trans o
      split at h <;> simp [GuardRow.toHeld, GuardRow.toWaiting] at h
    · refine State.modRow_held _ (fun q found held => ?_) h held
      cases row.symm.trans found
      simp [held] at claiming

theorem State.zoneWaitEnds_steady (s : State) : Steady s s.zoneWaitEnds := by
  unfold State.zoneWaitEnds State.zoneWaitExpired
  split
  · split
    · exact .refl s
    · refine Steady.trans ?_ (State.report_steady _ _ _)
      exact .beside rfl rfl
  · exact .refl s

/-! ## Frames received -/

theorem State.receive_steady (s : State) (frame : List Byte) (wf : Bool) (snd : Sender) {f : State → State}
    (h : ∀ t, Steady t (f t)) : Steady s (s.receive frame wf snd f) := by
  refine (Steady.ofBus s { s.bus with rx := s.bus.rx.tookFrame frame }).trans ?_
  cases wf
  · exact State.discard_steady _
  · show Steady _ (State.sortFrame _ snd f)
    have checked (t : State) : Steady t (t.checkDuplicate snd) := by
      unfold State.checkDuplicate
      split
      · exact t.report_steady _ _
      · exact .refl t
    unfold State.sortFrame
    split
    · simp only
      split
      · exact checked _
      · exact (checked _).trans (h _)
    · exact .refl _

theorem State.receiveCommand_steady (s : State) (kind : Byte) (h : CommandHead) (args : List Byte) (defined : Bool)
    {owner : State → State × CmdOutcome} (k : ∀ t, Steady t (owner t).1) :
    Steady s (s.receiveCommand kind h args defined owner) := by
  refine State.receive_steady s _ _ _ fun t => ?_
  unfold State.command
  split
  · refine Steady.trans ?_ (State.giveOutcome_steady _ _ _ _)
    split
    · exact .refl t
    · exact k t
  · exact .refl t

theorem State.handReply_steady (s : State) (n : Nat) (o : SvcOutcome) (data : List Byte) : Steady s (s.handReply n o data) := by
  unfold State.handReply
  split
  · exact .ofBus s _
  · exact .refl s
  · exact .refl s

theorem State.answer_steady (s : State) (n : Nat) (a : Answer) : Steady s (s.answer n a) := by
  cases a
  · exact s.handReply_steady n _ _
  · exact .beside rfl rfl

theorem State.receiveRequest_steady (s : State) (kind : Byte) (r : ServiceReq) {owner : State → State × Answer}
    (h : ∀ t, Steady t (owner t).1) : Steady s (s.receiveRequest kind r owner) := by
  refine State.receive_steady s _ _ _ fun t => ?_
  unfold State.service
  split
  · split
    · exact .refl t
    · next n _ =>
      let taken : State := { t with
        comm := { t.comm with jumper := r.jumper, strapLevel := r.straps }
        bus := t.bus.setPlace n (.reserved { requester := r.sender.station, kind := kind, tag := r.tag }) }
      have took : Steady t taken := .beside rfl rfl
      simp only
      split
      · exact took.trans (State.handReply_steady _ _ _ _)
      · exact (took.trans (h taken)).trans (State.answer_steady _ _ _)
  · exact .refl t

/-! ## Commands -/

theorem distinct_nodup (l : List Nat) : (distinct l).Nodup := by
  induction l with
  | nil => exact List.nodup_nil
  | cons n l ih =>
    unfold distinct
    split
    · exact ih
    · next new => exact List.nodup_cons.mpr ⟨new, ih⟩

theorem insertPeer_perm (r : PeerRecord) (ps : List PeerRecord) : (insertPeer r ps).Perm (r :: ps) := by
  induction ps with
  | nil => exact .refl _
  | cons q qs ih =>
    unfold insertPeer
    split
    · exact .refl _
    · exact (ih.cons q).trans (.swap r q qs)

/-- Records put in their places one after another are the records before with the new ones. -/
theorem insertPeers_perm (make : Nat → PeerRecord) (l : List Nat) (ps : List PeerRecord) :
    (l.foldl (fun qs n => insertPeer (make n) qs) ps).Perm (l.map make ++ ps) := by
  induction l generalizing ps with
  | nil => exact .refl _
  | cons n l ih => exact ((ih _).trans ((insertPeer_perm (make n) ps).append_left _)).trans List.perm_middle

/-- The law of the peer view, from the stations in any order. -/
theorem State.peerViewOk_of_perm {s : State} {l : List Nat} (h : (s.peers.map (·.station)).Perm l) (few : l.length ≤ 8)
    (once : l.Nodup) : s.peerViewOk := by
  have length := h.length_eq
  rw [List.length_map] at length
  exact ⟨length ▸ few, h.nodup_iff.mpr once⟩

theorem findPeer_none_iff (ps : List PeerRecord) (n : Nat) :
    findPeer ps n = none ↔ n ∉ ps.map (·.station) := by
  simp [findPeer]

/-- R106: the stations after the script peers have joined. -/
theorem addScript_stations (ps : List PeerRecord) (script : List Nat) :
    ((addScript ps script).map (·.station)).Perm (newStations ps script ++ ps.map (·.station)) := by
  have joined := (insertPeers_perm (PeerRecord.make · false true) (newStations ps script)
    (ps.map fun r => { r with scriptRole := r.scriptRole || script.contains r.station })).map (·.station)
  rw [List.map_append, List.map_map, List.map_map] at joined
  exact joined.trans (.of_eq (congrArg (· ++ _) (List.map_id _)))

/-- R104, R106: script peers, each named once, join within the free records, and a station that has a record gets no second. -/
theorem State.arm_steady (s : State) (layout slot count console tag delay : Nat)
    (grants : grantsScript s.station s.peers (s.scriptPeers slot count) = true) :
    Steady s (s.arm layout slot count console tag delay) := by
  refine ⟨fun _ _ row _ => row, fun ⟨_, once⟩ => State.peerViewOk_of_perm (addScript_stations _ _) ?_ ?_⟩
  · simp only [grantsScript, Bool.and_eq_true, decide_eq_true_eq] at grants
    rw [List.length_append, List.length_map]
    exact grants.2
  · refine List.Nodup.append ((distinct_nodup _).filter _) once fun n new old => ?_
    exact (findPeer_none_iff s.peers n).mp (Option.isNone_iff_eq_none.mp (List.mem_filter.mp new).2) old

theorem State.ownConvert_steady (s : State) (h : CommandHead) (layout : Byte) (delay : BitVec 16) :
    Steady s (s.ownConvert h layout delay).1 := by
  unfold State.ownConvert
  split
  · exact .refl s
  · next slot count judged =>
    refine s.arm_steady _ slot count _ _ _ ?_
    unfold State.judgeConvert at judged
    repeat' split at judged
    all_goals cases judged
    assumption

theorem State.ownCancel_steady (s : State) : Steady s s.ownCancel.1 := by
  unfold State.ownCancel
  split
  · exact s.seqToIdle_steady
  · exact s.stopRequested_steady.trans (State.seqToAborted_steady _)
  · exact s.stopRequested_steady.trans (State.seqToAborted_steady _)
  all_goals exact .refl s

theorem State.ownJog_steady (s : State) (x : Axis) (d : Dir) (v : Nat) : Steady s (s.ownJog x d v).1 := by
  unfold State.ownJog State.startJog
  split
  · exact .refl s
  · split
    · exact .refl s
    · exact (Steady.ofMon s _).trans (State.request_steady _ x _)

theorem State.ownHome_steady (s : State) (x : Axis) : Steady s (s.ownHome x).1 := by
  unfold State.ownHome State.startHome
  split
  · exact .refl s
  · exact (((s.setReferenced_steady x false).trans (.ofSetAxis _ x _)).trans (.ofMon _ _)).trans (State.request_steady _ x _)

theorem State.ownJogEnd_steady (s : State) (x : Axis) : Steady s (s.ownJogEnd x).1 := by
  unfold State.ownJogEnd
  split
  · exact (Steady.ofMon s { s.mon with run := .none }).trans (State.stopAxis_steady _ x _)
  · exact .refl s

theorem State.ownClearFault_steady (s : State) : Steady s s.ownClearFault.1 := by
  have cleared : Steady s s.clearFaults := .beside rfl rfl
  unfold State.ownClearFault
  split
  · exact .refl s
  · split
    · exact cleared
    · exact .refl s

theorem State.rxConvert_steady (s : State) (h : CommandHead) (layout : Byte) (delay : BitVec 16) :
    Steady s (s.rxConvert h layout delay) :=
  s.receiveCommand_steady _ _ _ _ fun t => t.ownConvert_steady h layout delay

theorem State.rxCancel_steady (s : State) (h : CommandHead) : Steady s (s.rxCancel h) :=
  s.receiveCommand_steady _ _ _ _ State.ownCancel_steady

theorem State.rxHome_steady (s : State) (h : CommandHead) (axis : Byte) : Steady s (s.rxHome h axis) := by
  refine s.receiveCommand_steady _ _ _ _ fun t => ?_
  split
  · exact t.ownHome_steady _
  · exact .refl t

theorem State.rxJog_steady (s : State) (h : CommandHead) (axis dir : Byte) (speed : BitVec 24) :
    Steady s (s.rxJog h axis dir speed) := by
  refine s.receiveCommand_steady _ _ _ _ fun t => ?_
  split
  · exact t.ownJog_steady _ _ _
  · exact .refl t

theorem State.rxJogEnd_steady (s : State) (h : CommandHead) (axis : Byte) : Steady s (s.rxJogEnd h axis) := by
  refine s.receiveCommand_steady _ _ _ _ fun t => ?_
  split
  · exact t.ownJogEnd_steady _
  · exact .refl t

theorem State.rxClearFault_steady (s : State) (h : CommandHead) : Steady s (s.rxClearFault h) :=
  s.receiveCommand_steady _ _ _ _ State.ownClearFault_steady

/-! ## STATUS, STOP, ENABLE, SERVICE_REPLY and the ages -/

theorem Steady.ofModPeer (s : State) (n : Nat) {f : PeerRecord → PeerRecord} (h : ∀ r, (f r).station = r.station) :
    Steady s { s with peers := modPeer n f s.peers } := .ofCalm (.ofModPeer s n h) rfl

theorem State.statusArrival_steady (s : State) (n : Nat) (p : StatusPayload) : Steady s (s.statusArrival n p) := by
  have heard : Steady s { s with peers := modPeer n (PeerRecord.hear (peerStatusOf p)) s.peers } := .ofModPeer s n fun _ => rfl
  unfold State.statusArrival
  split
  · exact .refl s
  · simp only
    split <;> split
    · exact (heard.trans (State.zoneArrival_steady _ n)).trans (State.seqArrival_steady _ n)
    · exact heard.trans (State.seqArrival_steady _ n)
    · exact heard.trans (State.zoneArrival_steady _ n)
    · exact heard

theorem State.peerToStale_steady (s : State) (n : Nat) : Steady s (s.peerToStale n) := by
  have aged : Steady s { s with peers := modPeer n PeerRecord.toStale s.peers } := .ofModPeer s n fun _ => rfl
  unfold State.peerToStale
  split
  · simp only
    split
    · exact aged.trans (State.zoneFreshness_steady _ n true)
    · exact aged
  · exact .refl s

theorem State.peerToLost_steady (s : State) (n : Nat) : Steady s (s.peerToLost n) := by
  have aged : Steady s (({ s with peers := modPeer n PeerRecord.toLost s.peers } : State).raiseNotice .peerLost) :=
    (Steady.ofModPeer s n (f := PeerRecord.toLost) fun _ => rfl).trans (.beside rfl rfl)
  unfold State.peerToLost
  split
  · simp only
    split
    · exact aged.trans (State.zoneFreshness_steady _ n false)
    · exact aged
  · exact .refl s

theorem State.rxStatus_steady (s : State) (snd : Sender) (p : StatusPayload) : Steady s (s.rxStatus snd p) :=
  s.receive_steady _ _ _ fun t => t.statusArrival_steady _ p

theorem State.rxStop_steady (s : State) (snd : Sender) : Steady s (s.rxStop snd) :=
  s.receive_steady _ _ _ fun t => t.reactions_steady .controlled none

theorem State.rxEnable_steady (s : State) (snd : Sender) (targets : BitVec 32) : Steady s (s.rxEnable snd targets) :=
  s.receive_steady _ _ _ fun t => t.enableTaken_steady snd targets

theorem State.rxReply_steady (s : State) (snd : Sender) (q k n o : Byte) (data : List Byte) :
    Steady s (s.rxReply snd q k n o data) := s.receive_steady _ _ _ .refl

/-! ## Service requests -/

/-- A request that is answered from the state as it stands leaves it so. -/
theorem Steady.of_read {owner : State → State × Answer} (h : ∀ t, (owner t).1 = t) (t : State) : Steady t (owner t).1 := by
  rw [h]; exact .refl t

/-- R101, R179: COMMISSION entered, the HELD rows stand. -/
theorem State.enterCommission_steady (s : State) : Steady s s.enterCommission := by
  refine Steady.trans ?_ (State.announce_steady _ s)
  exact (Steady.ofRows s GuardRow.dropClaim 0 fun _ => GuardRow.dropClaim_held).trans (.beside rfl rfl)

theorem State.ownCommissionEnter_steady (s : State) : Steady s s.ownCommissionEnter.1 := by
  unfold State.ownCommissionEnter
  split
  · exact .refl s
  · split
    · exact .refl s
    · exact s.enterCommission_steady
    · split
      · exact s.enterCommission_steady
      · exact .refl s
    · exact .refl s
    · exact .refl s

theorem State.setRestart_steady (s : State) : Steady s s.setRestart := .beside rfl rfl

theorem State.ownCommissionExit_steady (s : State) : Steady s s.ownCommissionExit.1 := by
  unfold State.ownCommissionExit
  split
  · exact .refl s
  · split
    · exact s.setRestart_steady
    · exact .refl s

theorem State.ownRestart_steady (s : State) : Steady s s.ownRestart.1 := by
  unfold State.ownRestart
  split
  · exact s.setRestart_steady
  · exact .refl s

theorem State.ownWriteEnable_steady (s : State) : Steady s s.ownWriteEnable.1 := by
  unfold State.ownWriteEnable
  split
  · exact .refl s
  · exact .beside rfl rfl

theorem State.ownConfigWrite_steady (s : State) (args : List Byte) : Steady s (s.ownConfigWrite args).1 := by
  unfold State.ownConfigWrite
  split
  · exact .refl s
  · split
    · exact .refl s
    · split
      · exact .refl s
      · exact .beside rfl rfl

theorem State.rxByKind_steady (s : State) (kind : Byte) (r : ServiceReq) : Steady s (s.rxByKind kind r) := by
  unfold State.rxByKind
  split
  · exact s.receiveRequest_steady _ r .refl
  · exact s.receiveRequest_steady _ r .refl
  · exact s.receiveRequest_steady _ r (Steady.of_read (State.ownReadPeers_state · _))
  · exact s.receiveRequest_steady _ r (Steady.of_read (State.ownReadCapture_state · _))
  · exact s.receiveRequest_steady _ r (Steady.of_read (State.ownReadSlot_state · _))
  · exact s.receiveRequest_steady _ r State.ownCommissionEnter_steady
  · exact s.receiveRequest_steady _ r State.ownCommissionExit_steady
  · exact s.receiveRequest_steady _ r State.ownWriteEnable_steady
  · exact s.receiveRequest_steady _ r .refl
  · exact s.receiveRequest_steady _ r .refl
  · exact s.receiveRequest_steady _ r .refl
  · exact s.receiveRequest_steady _ r .refl
  · exact s.receiveRequest_steady _ r (State.ownConfigWrite_steady · _)
  · exact s.receiveRequest_steady _ r .refl
  · exact s.receiveRequest_steady _ r State.ownRestart_steady
  · exact s.receiveRequest_steady _ r .refl

/-- A completion of the store (R183) meets neither table. -/
theorem State.finishJob_steady (s : State) (nv : Nonvolatile) (place : Nat) (o : SvcOutcome) :
    Steady s (({ s with nv := nv } : State).finishJob place o) :=
  Steady.trans (t := { s with nv := nv, store := { latch := false, job := none } }) (.beside rfl rfl)
    (State.handReply_steady _ _ _ _)

theorem State.eraseEnds_steady (s : State) : Steady s s.eraseEnds := by
  unfold State.eraseEnds
  split
  · exact s.finishJob_steady _ _ _
  · exact .refl s

theorem State.programEnds_steady (s : State) : Steady s s.programEnds := by
  unfold State.programEnds
  split
  · exact s.finishJob_steady _ _ _
  · exact .refl s

theorem State.finalizeEnds_steady (s : State) : Steady s s.finalizeEnds := by
  unfold State.finalizeEnds
  split
  · split
    · exact s.finishJob_steady s.nv _ _
    · split
      · exact s.finishJob_steady s.nv _ _
      · exact s.finishJob_steady _ _ _
  · exact .refl s

theorem State.lockEnds_steady (s : State) : Steady s s.lockEnds := by
  unfold State.lockEnds
  split
  · exact s.finishJob_steady _ _ _
  · exact .refl s

theorem State.commitEnds_steady (s : State) : Steady s s.commitEnds := by
  unfold State.commitEnds
  split
  · exact s.finishJob_steady _ _ _
  · exact .refl s

/-! ## The transmitter and the line -/

theorem State.startTransmit_steady (s : State) : Steady s s.startTransmit := by
  unfold State.startTransmit
  split
  · split
    · exact .ofBus s _
    · exact .refl s
  · exact .refl s

theorem State.frameSent_steady (s : State) (src : TxSource) : Steady s (s.frameSent src) := .beside rfl rfl

theorem State.completeFrame_steady (s : State) : Steady s s.completeFrame := by
  unfold State.completeFrame
  split
  · exact .refl s
  · exact .beside rfl rfl

theorem State.dueTime_steady (s : State) : Steady s s.dueTime := by
  unfold State.dueTime
  split
  · exact .ofBus s _
  · exact .refl s

theorem State.silenceEnds_steady (s : State) : Steady s s.silenceEnds := by
  unfold State.silenceEnds
  split
  · exact (Steady.ofBus s _).trans (State.report_steady _ _ _)
  · exact .refl s
  · exact .refl s

/-- A frame that passed its checks is steady, whatever its row. -/
theorem State.runFrame_steady (s : State) (i : Instr) : Steady s (s.runFrame i) := by
  unfold State.runFrame
  split
  · exact s.rxStatus_steady _ _
  · exact s.rxStop_steady _
  · exact s.rxEnable_steady _ _
  · exact s.rxConvert_steady _ _ _
  · exact s.rxCancel_steady _
  · exact s.rxHome_steady _ _
  · exact s.rxJog_steady _ _ _ _
  · exact s.rxJogEnd_steady _ _
  · exact s.rxClearFault_steady _
  · exact s.rxReply_steady _ _ _ _ _ _
  · exact s.rxByKind_steady 1 _
  · exact s.rxByKind_steady 2 _
  · exact s.rxByKind_steady 3 _
  · exact s.rxByKind_steady 4 _
  · exact s.rxByKind_steady 5 _
  · exact s.rxByKind_steady 6 _
  · exact s.rxByKind_steady 7 _
  · exact s.rxByKind_steady 15 _
  · exact s.rxByKind_steady 8 _
  · exact s.rxByKind_steady 9 _
  · exact s.rxByKind_steady 10 _
  · exact s.rxByKind_steady 11 _
  · exact s.rxByKind_steady 12 _
  · exact s.rxByKind_steady 13 _
  · exact s.rxByKind_steady 14 _
  · exact s.rxByKind_steady _ _
  · exact .refl s

theorem State.frameEnd_steady (s : State) (chars : List Byte) : Steady s (s.frameEnd chars) := by
  have judged : Steady s (s.judgeFrame chars) := by
    unfold State.judgeFrame
    split
    · exact s.runFrame_steady _
    · exact s.discard_steady
  exact judged.trans (.ofBus _ _)

theorem State.compareBit_steady (s : State) (level : Bool) : Steady s (s.compareBit level) := by
  unfold State.compareBit
  split
  · exact .refl s
  · next src _ _ _ =>
    split
    · exact .ofBus s _
    · cases src <;> exact .beside rfl rfl

theorem State.readBack_steady (s : State) (e : LineEvent) : Steady s (s.readBack e) := by
  cases e with
  | edge _ => exact .refl s
  | sample l => exact s.compareBit_steady l
  | recessive n =>
    simp only [State.readBack]
    split
    · exact s.compareBit_steady true
    · exact .refl s

theorem State.checkSent_steady (s : State) : Steady s s.checkSent := by
  unfold State.checkSent
  split
  · exact .refl s
  · split
    · exact s.frameSent_steady _
    · exact .refl s

theorem State.lineEvent_steady (s : State) (e : LineEvent) : Steady s (s.lineEvent e) := by
  unfold State.lineEvent
  simp only
  generalize (s.readBack e).bus.rx.feed (s.readBack e).bus.tx.drives e = r
  refine (((s.readBack_steady e).trans (.ofBus _ { (s.readBack e).bus with rx := r.1 })).trans ?_).trans
    (State.checkSent_steady _)
  cases r.2
  · exact .refl _
  · exact State.discard_steady _
  · exact State.frameEnd_steady _ _

theorem State.lineEvents_steady (s : State) (es : List LineEvent) : Steady s (s.lineEvents es) := by
  induction es generalizing s with
  | nil => exact .refl s
  | cons e es ih => exact (s.lineEvent_steady e).trans (ih _)

theorem State.withdrawAt_steady (s : State) (bit : Nat) : Steady s (s.withdrawAt bit) := by
  unfold State.withdrawAt
  split
  · exact .refl s
  · split
    · exact .refl s
    · exact (Steady.ofBus s _).trans (State.lineEvents_steady _ _)

/-! ## Every command that leaves the HELD rows -/

/-- The commands that may change a HELD row: a profile tick, a reset, a restart and the end of START. -/
def movesHeld : Instr → Bool
  | .profileTick => true
  | .warmRestart => true
  | .resetTaken => true
  | .coldReset _ => true
  | .startEnd _ => true
  | _ => false

/-- A choice between two next states is a next state. -/
theorem ite_next (p : Prop) [Decidable p] (s t : State) :
    ∃ u, (if p then .next s else .next t : Host.Outcome State Fault Refusal) = .next u := by
  split <;> exact ⟨_, rfl⟩

/-- Every command answers a next state. -/
theorem exec_completes (c : Instr) (s : State) : ∃ t, exec c s = .next t := by
  cases c
  case coldReset => exact ⟨_, rfl⟩
  case resetTaken => exact ⟨_, rfl⟩
  all_goals exact ite_next (s.inReset = true) s _

/-- What reaches a part out of reset is steady when its operation is; a part held in reset stays. -/
theorem live_steady {f : State → State} {s t : State} (h : Steady s (f s)) (e : live f s = .next t) : Steady s t := by
  unfold live at e
  split at e <;> cases e
  · exact .refl s
  · exact h

theorem exec_steady {c : Instr} (h : movesHeld c = false) {s t : State} (e : exec c s = .next t) : Steady s t := by
  unfold exec at e
  cases c with
  | coldReset pins => cases h
  | resetTaken => cases h
  | startEnd straps => cases h
  | warmRestart => cases h
  | profileTick => cases h
  | encoderTransition x a b => exact live_steady (s.transition_steady x a b) e
  | slewIndexMark => exact live_steady (s.takeMark_steady .slew) e
  | rakeSwitchClose => exact live_steady s.switchCloses_steady e
  | rakeSwitchOpen => exact live_steady s.switchOpens_steady e
  | endLimitActive x d => exact live_steady (s.limitActive_steady x d) e
  | endLimitInactive x d => exact live_steady (.ofSetAxis s x _) e
  | driveReadyActive x => exact live_steady (s.readyActive_steady x) e
  | readyLimitExpiry x => exact live_steady (s.readyLimitEnds_steady x) e
  | brakeReleaseExpiry x => exact live_steady (s.releaseEnds_steady x) e
  | holdExpiry x => exact live_steady (s.holdEnds_steady x) e
  | brakeSetExpiry x => exact live_steady (s.setEnds_steady x) e
  | driveLoss x => exact live_steady (s.readyInactive_steady x) e
  | localStopChainOpen => exact live_steady s.chainOpens_steady e
  | localStopChainClose => exact live_steady (.beside rfl rfl) e
  | claimWindowExpiry => exact live_steady s.windowExpired_steady e
  | zoneTimeout => exact live_steady s.zoneWaitEnds_steady e
  | statusFrame snd p => exact live_steady (s.rxStatus_steady snd p) e
  | peerStale n => exact live_steady (s.peerToStale_steady n.toNat) e
  | peerLost n => exact live_steady (s.peerToLost_steady n.toNat) e
  | stopFrame snd => exact live_steady (s.rxStop_steady snd) e
  | enableFrame snd targets => exact live_steady (s.rxEnable_steady snd targets) e
  | enableExpiry => exact live_steady s.enableEnds_steady e
  | convert head layout delay => exact live_steady (s.rxConvert_steady head layout delay) e
  | cancel head => exact live_steady (s.rxCancel_steady head) e
  | home head x => exact live_steady (s.rxHome_steady head x) e
  | jog head x d v => exact live_steady (s.rxJog_steady head x d v) e
  | jogEnd head x => exact live_steady (s.rxJogEnd_steady head x) e
  | clearFault head => exact live_steady (s.rxClearFault_steady head) e
  | serviceReplyFrame snd q k n o data => exact live_steady (s.rxReply_steady snd q k n o data) e
  | frameDiscard line => exact live_steady (s.lineEvents_steady line) e
  | identify r => exact live_steady (s.rxByKind_steady 1 r) e
  | readFault r => exact live_steady (s.rxByKind_steady 2 r) e
  | readPeers r => exact live_steady (s.rxByKind_steady 3 r) e
  | readCapture r => exact live_steady (s.rxByKind_steady 4 r) e
  | readSlot r => exact live_steady (s.rxByKind_steady 5 r) e
  | commissionEnter r => exact live_steady (s.rxByKind_steady 6 r) e
  | commissionExit r => exact live_steady (s.rxByKind_steady 7 r) e
  | restart r => exact live_steady (s.rxByKind_steady 15 r) e
  | writeEnable r => exact live_steady (s.rxByKind_steady 8 r) e
  | eraseSlot r => exact live_steady (s.rxByKind_steady 9 r) e
  | eraseComplete => exact live_steady s.eraseEnds_steady e
  | programSteps r => exact live_steady (s.rxByKind_steady 10 r) e
  | programComplete => exact live_steady s.programEnds_steady e
  | finalizeSlot r => exact live_steady (s.rxByKind_steady 11 r) e
  | finalizeComplete => exact live_steady s.finalizeEnds_steady e
  | lockSlot r => exact live_steady (s.rxByKind_steady 12 r) e
  | lockComplete => exact live_steady s.lockEnds_steady e
  | configWrite r => exact live_steady (s.rxByKind_steady 13 r) e
  | configCommit r => exact live_steady (s.rxByKind_steady 14 r) e
  | commitComplete => exact live_steady s.commitEnds_steady e
  | undefinedServiceReq k r => exact live_steady (s.rxByKind_steady k r) e
  | transmitStart => exact live_steady s.startTransmit_steady e
  | withdraw bit => exact live_steady (s.withdrawAt_steady bit) e
  | frameComplete => exact live_steady s.completeFrame_steady e
  | statusDue => exact live_steady s.dueTime_steady e
  | busSilent => exact live_steady s.silenceEnds_steady e
  | holdOffExpiry => exact live_steady s.holdOffExpires_steady e
  | stepTimeout => exact live_steady s.stepTimeEnds_steady e
  | dwellEnd => exact live_steady s.dwellEnds_steady e
  | stopLineAsserted => exact live_steady s.lineAsserts_steady e
  | stopLineReleased => exact live_steady s.lineReleases_steady e
  | pwmPeriodStart x => exact live_steady (.ofSetAxis s x _) e

/-- Settles O36: every other command is a chain of steady changes. -/
theorem heldRowsStand : Obligations.HeldRowsStand := by
  intro c s i g row held tick warm taken cold start
  have other : movesHeld c = false := by
    cases c with
    | profileTick => exact absurd rfl tick
    | warmRestart => exact absurd rfl warm
    | resetTaken => exact absurd rfl taken
    | coldReset p => exact absurd rfl (cold p)
    | startEnd n => exact absurd rfl (start n)
    | _ => rfl
  obtain ⟨t, e⟩ := exec_completes c s
  exact ⟨t, e, (exec_steady other e).held i g row held⟩

/-! ## Every step -/

/-- R86: every kind of change keeps at most one row CLAIMING. -/
theorem Change.oneClaim {s t : State} (h : Change s t) (o : s.oneClaim) : t.oneClaim := by
  have none_ {z : ZoneGuard} (free : ∀ g ∈ z.rows, g.guard ≠ .claiming) : z.claims ≤ 1 := by
    have zero : z.claims = 0 := by simpa [ZoneGuard.claims, List.countP_eq_zero] using free
    omega
  cases h with
  | calm k => exact k.claim o
  | reads x => unfold State.oneClaim; rwa [State.setAxis_zones]
  | beside _ _ _ zones => unfold State.oneClaim; rwa [zones]
  | commissions =>
    unfold State.oneClaim
    simp [ZoneGuard.dropClaims_claims]
  | arms => exact o
  | cold => exact Nat.zero_le 1
  | restarts => exact Nat.zero_le 1
  | starts level =>
    refine none_ fun g hg => ?_
    simp only [State.started] at hg
    split at hg
    · obtain ⟨z, -, rfl⟩ := List.mem_map.mp hg
      nofun
    · cases hg
  | passes => exact (countP_map_le _ GuardRow.passMs _ fun _ => id).trans o

/-- The stations of the zone records are the zone peers (R105). -/
theorem zoneRecords_stations (l : List Nat) : ((zoneRecords l).map (·.station)).Perm l := by
  have built := (insertPeers_perm (PeerRecord.make · true false) l []).map (·.station)
  rw [List.append_nil, List.map_map] at built
  exact built.trans (.of_eq (List.map_id l))

/-- The sharing peers of a record's map stand at the offsets that R181 ties. -/
theorem readRecord_peers (bs : List Byte) :
    (readRecord bs).zones.flatMap (·.peers) =
      ((List.range (min 4 (u8 bs 83))).flatMap (peerOffsets bs)).map (u8 bs) := by
  simp only [readRecord, List.flatMap_map, List.map_flatMap]
  congr 1
  funext i
  simp [zoneEntry, peerOffsets]

/-- R181: a record that comes in force names at most 6 zone peers. -/
theorem Nonvolatile.loaded_peers {nv : Nonvolatile} {n : Nat} {r : Record} (h : nv.loaded n = some r) :
    r.zonePeers.length ≤ 6 := by
  unfold Nonvolatile.loaded at h
  split at h
  · next good =>
    cases h
    have ok : recordOk n nv.record = true := good.2.2
    simp only [recordOk, relations, mapRelations, List.all_append, Bool.and_eq_true, List.all_cons, decide_eq_true_eq] at ok
    obtain ⟨-, -, ⟨⟨⟨-, few, -⟩, -⟩, -⟩⟩ := ok
    unfold Record.zonePeers
    rw [readRecord_peers]
    exact few
  · cases h

/-- R104: a view without records, as a reset or restart leaves it. -/
theorem State.peerViewOk_empty {s : State} (h : s.peers = []) : s.peerViewOk := by
  unfold State.peerViewOk
  rw [h]
  exact ⟨Nat.zero_le 8, List.nodup_nil⟩

/-- R104, R105: the view that START builds. -/
theorem State.started_peerViewOk (s : State) (level : BitVec 5) : (s.started level).peerViewOk := by
  cases loaded : s.nv.loaded level.toNat with
  | none =>
    exact State.peerViewOk_empty (by simp [State.started, loaded])
  | some r =>
    have built : (s.started level).peers = zoneRecords r.zonePeers := by simp [State.started, loaded]
    refine State.peerViewOk_of_perm (l := r.zonePeers) (built ▸ zoneRecords_stations _) ?_ (distinct_nodup _)
    exact (Nonvolatile.loaded_peers loaded).trans (by decide)

theorem State.resumeAxes_steady (s : State) (prior : Option Record) : Steady s (s.resumeAxes prior) := by
  have judged (t : State) (x : Axis) : Steady t (t.judgeReference prior x) := by
    unfold State.judgeReference
    split
    · exact .refl t
    · exact t.setReferenced_steady x false
  exact ((judged s .slew).trans (judged _ .rake)).trans (.beside rfl rfl)

theorem State.startEnds_peerViewOk (s : State) (level : BitVec 5) (o : s.peerViewOk) : (s.startEnds level).peerViewOk := by
  unfold State.startEnds
  split
  · refine (State.readLine_calm _).peerViewOk ((State.readChain_calm _).peerViewOk ?_)
    split
    · exact (State.resumeAxes_steady _ _).peers (s.started_peerViewOk level)
    · exact s.started_peerViewOk level
  · exact o

theorem live_peerViewOk {f : State → State} {s t : State} (o : s.peerViewOk) (h : (f s).peerViewOk)
    (e : live f s = .next t) : t.peerViewOk := by
  unfold live at e
  split at e <;> cases e
  · exact o
  · exact h

/-- R104: every command keeps the law of the peer view. -/
theorem exec_peerViewOk {c : Instr} {s t : State} (e : exec c s = .next t) (o : s.peerViewOk) : t.peerViewOk := by
  cases c with
  | coldReset => cases e; exact State.peerViewOk_empty rfl
  | resetTaken => cases e; exact State.peerViewOk_empty rfl
  | startEnd level => exact live_peerViewOk o (s.startEnds_peerViewOk level o) e
  | warmRestart =>
    refine live_peerViewOk o ?_ e
    unfold State.warmRestart
    split
    · exact State.peerViewOk_empty rfl
    · exact o
  | profileTick =>
    obtain ⟨u, calm, ticked, -⟩ := s.profileTick_calm
    exact live_peerViewOk o (ticked ▸ calm.peerViewOk o) e
  | _ => exact (exec_steady rfl e).peers o

theorem State.passMs_peerViewOk (s : State) (o : s.peerViewOk) : s.passMs.peerViewOk := by
  have rested : s.restLine.peerViewOk := by
    unfold State.restLine
    split
    · exact o
    · exact (s.lineEvent_steady _).peers o
  have passed (t : State) (ok : t.peerViewOk) : t.passTimers.peerViewOk := by
    have stations : t.passTimers.peers.map (·.station) = t.peers.map (·.station) := by
      simp [State.passTimers, PeerRecord.passMs]
    obtain ⟨few, once⟩ := ok
    exact State.peerViewOk_of_perm (.of_eq stations) (by rwa [List.length_map]) once
  unfold State.passMs
  split
  · exact o
  · exact passed _ rested

/-- R104: every step keeps the law of the peer view. -/
theorem step_peerViewOk {s t : State} (e : step s = .next t) (o : s.peerViewOk) : t.peerViewOk := by
  unfold step at e
  split at e
  · cases e; exact s.passMs_peerViewOk o
  · exact exec_peerViewOk e o

/-- Settles O56: each kind of change adds no claim, and each command keeps the stations apart and few. -/
theorem tablesKept : Obligations.TablesKept := fun _ _ e =>
  ⟨step_keeps (fun _ _ => Change.oneClaim) e, step_peerViewOk e⟩

end Sys2Proof.Machine
end

-- ==== Proofs: the step and a millisecond without a command ====
section
/-! SUPPORT. What a step on an empty queue does (log entry 3): the timers run, and a line that nobody drives rests. -/

namespace Sys2Proof.Machine

/-! ## The line at rest (R153, R155) -/

/-- The receiver after a millisecond without a command: rested, unless this station drives the line. -/
def State.restedRx (s : State) : Receiver := if s.bus.tx.drives then s.bus.rx else (s.bus.rx.rest msBits).1

theorem Transmitter.drives_iff (tx : Transmitter) : tx.drives = true ↔ tx ≠ .quiet := by
  cases tx <;> simp [Transmitter.drives]

/-- A rest gives no frame and no discard, but for another station's frame that ends. -/
theorem Receiver.rest_report {rx : Receiver} (h : rx.state = .between → rx.own = true) (n : Nat) : (rx.rest n).2 = .none := by
  unfold Receiver.rest
  split
  · rfl
  · next between =>
    split
    · rw [Receiver.ended, if_pos (h between)]
    · rfl
  · rfl
  · rfl

/-- R155: the rest of the line changes the receiver alone, while no other station's frame waits in BETWEEN. -/
theorem State.restLine_eq {s : State} (h : s.bus.tx = .quiet → s.bus.rx.state = .between → s.bus.rx.own = true) :
    s.restLine = { s with bus := { s.bus with rx := s.restedRx } } := by
  unfold State.restLine State.restedRx
  split
  · rfl
  · next silent =>
    have quiet : s.bus.tx = .quiet := not_not.mp fun e => silent ((Transmitter.drives_iff _).mpr e)
    simp only [State.lineEvent, State.readBack_quiet quiet, Receiver.feed, Receiver.rest_report (h quiet), State.takeReport]
    exact State.checkSent_quiet quiet

theorem State.restedRx_hunting {s : State} (quiet : s.bus.tx = .quiet) (h : s.bus.rx.state = .hunting) :
    s.restedRx = { s.bus.rx with recessive := 11 } := by
  have full : min 11 (s.bus.rx.recessive + 1000) = 11 := by omega
  simp [State.restedRx, quiet, Transmitter.drives, Receiver.rest, h, full]

theorem State.restedRx_between {s : State} (quiet : s.bus.tx = .quiet) (h : s.bus.rx.state = .between) :
    s.restedRx = { s.bus.rx with state := .hunting, recessive := 11, own := false } := by
  have idle : 11 ≤ s.bus.rx.recessive + 1000 := by omega
  simp [State.restedRx, quiet, Transmitter.drives, Receiver.rest, h, idle]

/-- R154: a receiver that waits for a sample gets none of the rest, and one that reads its own station's frame none at all. -/
theorem State.restedRx_same {s : State}
    (h : s.bus.tx ≠ .quiet ∨ s.bus.rx.state = .startCheck ∨ s.bus.rx.state = .data) : s.restedRx = s.bus.rx := by
  unfold State.restedRx
  split
  · rfl
  · next silent =>
    rcases h with sending | start | data
    · exact absurd ((Transmitter.drives_iff _).mpr sending) silent
    · simp [Receiver.rest, start]
    · simp [Receiver.rest, data]

/-! ## The timers -/

theorem ZoneGuard.travelAsking_iff (z : ZoneGuard) : z.travelAsking = true ↔
    ∃ g ∈ z.rows, g.need = .travel ∧ (g.guard = .claiming ∨ g.guard = .waiting) := by
  simp [ZoneGuard.travelAsking]

theorem State.zoneWaitRuns_iff (s : State) : s.zoneWaitRuns = true ↔ s.seq.state ≠ .paused ∧
    ∃ g ∈ s.zones.rows, g.need = .travel ∧ (g.guard = .claiming ∨ g.guard = .waiting) := by
  simp [State.zoneWaitRuns, ZoneGuard.travelAsking_iff]

theorem State.stepTimerRuns_iff (s : State) : s.stepTimerRuns = true ↔
    s.seq.state = .running ∧ (s.seq.phase = .waitPeers ∨ s.seq.phase = .moving) := by
  simp [State.stepTimerRuns]

/-- A step on an empty queue lets a millisecond pass. -/
theorem step_empty {s : State} (h : s.pending = []) : step s = .next s.passMs := by
  unfold step; rw [h]

/-- Settles O1: the front of the queue is run as it stands, and a millisecond is the line's rest and the timers'. -/
theorem stepRunsFrontCommand : Obligations.StepRunsFrontCommand := by
  refine ⟨fun _ _ => rfl, fun s empty held => ?_, fun s empty live idle => ?_⟩
  · rw [step_empty empty, State.passMs, if_pos held]
  · have passed : s.passMs = ({ s with bus := { s.bus with rx := s.restedRx } } : State).passTimers := by
      rw [State.passMs, if_neg (by simp [live]), State.restLine_eq idle]
    refine ⟨_, step_empty empty, ?_⟩
    rw [passed]
    refine ⟨rfl, fun still => ?_, fun r record going asking => ?_, fun run phase => ?_, fun still => ?_,
      fun run phase => ?_, fun still => ?_, fun n running => ?_, fun still => ?_, fun quiet hunting => ?_,
      fun quiet between => ?_, fun waits => ?_⟩
    · exact if_neg fun runs => still (s.zoneWaitRuns_iff.mp runs)
    · have limit : s.zoneWaitMs = 1000 * r.zoneWait := by rw [State.zoneWaitMs, record]
      exact (if_pos (s.zoneWaitRuns_iff.mpr ⟨going, asking⟩)).trans (by rw [← limit]; rfl)
    · exact if_pos (s.stepTimerRuns_iff.mpr ⟨run, phase⟩)
    · refine if_neg fun runs => ?_
      obtain ⟨run, phase⟩ := s.stepTimerRuns_iff.mp runs
      rcases still with stopped | ⟨waits, moves⟩
      · exact stopped run
      · exact phase.elim waits moves
    · exact if_pos ⟨run, phase⟩
    · exact if_neg fun ⟨run, phase⟩ => still.elim (· run) (· phase)
    · exact congrArg Silence.passMs running
    · show s.bus.silence.passMs = s.bus.silence
      cases e : s.bus.silence with
      | running n => exact absurd e (still n)
      | stopped => rfl
      | reported => rfl
    · exact State.restedRx_hunting quiet hunting
    · exact State.restedRx_between quiet between
    · exact State.restedRx_same waits

end Sys2Proof.Machine
end

-- ==== Proofs: service requests and the modes ====
section
/-! SUPPORT. How a SERVICE_REQ frame reaches its owner and is answered (R157, R164), and the requests that change the mode
(R101, R179, R180). -/

namespace Sys2Proof.Machine

/-! ## The reply FIFO (R164) -/

@[simp] theorem Bus.setPlace_place (b : Bus) (n : Nat) (p : Place) : (b.setPlace n p).place n = p := by
  unfold Bus.setPlace Bus.place
  split <;> rfl

@[simp] theorem Bus.setPlace_setPlace (b : Bus) (n : Nat) (p q : Place) : (b.setPlace n p).setPlace n q = b.setPlace n q := by
  unfold Bus.setPlace
  split <;> rfl

@[simp] theorem Bus.setPlace_readyOrder (b : Bus) (n : Nat) (p : Place) : (b.setPlace n p).readyOrder = b.readyOrder := by
  unfold Bus.setPlace
  split <;> rfl

/-- The silence timer's start leaves the places. -/
@[simp] theorem Bus.startSilence_place (b : Bus) (n : Nat) : b.startSilence.place n = b.place n := by
  unfold Bus.startSilence
  split <;> rfl

@[simp] theorem State.requestStatus_place (s : State) (n : Nat) : s.requestStatus.bus.place n = s.bus.place n := by
  rw [State.requestStatus_bus]; rfl

theorem State.readyReply_of_ready {s : State} {n : Nat} {frame : List Byte} (h : s.bus.place n = .ready frame) :
    s.readyReply n = some frame := by
  unfold State.readyReply
  rw [h]

/-! ## A request taken -/

/-- What a place keeps of a request. -/
def keptOf (kind : Byte) (r : ServiceReq) : ReplyTo := { requester := r.sender.station, kind := kind, tag := r.tag }

/-- The state in which the owner of a request judges it: the place RESERVED, jumper and straps read (R164, R179, R181). -/
def State.asked (s : State) (kind : Byte) (r : ServiceReq) (n : Nat) : State := s.took kind r n (.reserved (keptOf kind r))

@[simp] theorem State.asked_place (s : State) (kind : Byte) (r : ServiceReq) (n : Nat) :
    (s.asked kind r n).bus.place n = .reserved (keptOf kind r) := Bus.setPlace_place _ _ _

/-- A request that is taken, with no restart pending, goes to its owner and gets the owner's answer (R164). -/
theorem live_request {s : State} {r : ServiceReq} {n : Nat} (h : s.requested r n)
    (restart : s.comm.restartPending = false) (kind : Byte) (owner : State → State × Answer) :
    live (fun t => t.receiveRequest kind r owner) s =
      .next ((owner (s.asked kind r n)).1.answer n (owner (s.asked kind r n)).2) := by
  obtain ⟨hears, wf, target, free⟩ := h
  have freed : (s.heard (serviceFrame kind r)).bus.freePlace = some n := free
  refine (live_of_not_inReset _ hears.1).trans (congrArg _ ?_)
  simp only [State.receiveRequest, wf, State.receive_of_hears hears, State.service, freed]
  rw [if_pos (show r.target.toNat = (s.heard (serviceFrame kind r)).station from target),
    if_neg (by simp [State.heard, restart])]
  rfl

/-- A reply handed in to the place that this station keeps for a request stands READY there. -/
theorem State.handReply_kept {s u : State} {kind : Byte} {r : ServiceReq} {n : Nat}
    (place : u.bus.place n = .reserved (keptOf kind r)) (self : u.self = s.self) (o : SvcOutcome) (data : List Byte) :
    u.handReply n o data = { u with bus := ({ u.bus.setPlace n (.ready (s.replyTo kind r o.code.toNat data)) with
      readyOrder := u.bus.readyOrder ++ [n] } : Bus).startSilence } := by
  have frame : u.replyFrame (keptOf kind r) o data = s.replyTo kind r o.code.toNat data := by
    unfold State.replyTo State.replyFrame
    rw [BitVec.ofNat_toNat, BitVec.setWidth_eq, self]
    rfl
  unfold State.handReply
  rw [place]
  simp only [Bus.setPlace_readyOrder, frame]

/-- An answer at once, from the state as the request found it (R164). -/
theorem State.asked_reply (s : State) (kind : Byte) (r : ServiceReq) (n : Nat) (o : SvcOutcome) (data : List Byte) :
    (s.asked kind r n).answer n (.reply o data) = s.replied kind r n o.code.toNat data := by
  refine (State.handReply_kept (s := s) (s.asked_place kind r n) rfl o data).trans ?_
  simp only [State.replied, State.asked, State.took, Bus.setPlace_setPlace, Bus.setPlace_readyOrder]
  rfl

/-! ## COMMISSION_ENTER, COMMISSION_EXIT and RESTART (R179, R180) -/

theorem State.bothOff_iff (s : State) : s.bothOff = true ↔ s.slew.state = .off ∧ s.rake.state = .off := by
  simp [State.bothOff, AxisUnit.isOff]

theorem State.mayCommission_iff (s : State) : s.mayCommission = true ↔
    s.seq.state.atEase = true ∧ s.mon.run = .none ∧ s.slew.state = .off ∧ s.rake.state = .off := by
  simp [State.mayCommission, State.bothOff_iff, and_assoc]

theorem State.mayRestart_iff (s : State) : s.mayRestart = true ↔
    s.store.job = none ∧ s.slew.state = .off ∧ s.rake.state = .off := by
  simp [State.mayRestart, State.bothOff_iff]

/-- R180: restart-pending set, and the reply OK. -/
theorem State.asked_restart (s : State) (kind : Byte) (r : ServiceReq) (n : Nat) :
    (s.asked kind r n).setRestart.answer n (.reply .ok []) = { s.replied kind r n 1 [] with
      comm := { s.comm with
        jumper := r.jumper, strapLevel := r.straps, restartPending := true, restartLeft := some 250 } } := by
  refine (State.handReply_kept (s := s) (u := (s.asked kind r n).setRestart) (s.asked_place kind r n) rfl .ok []).trans ?_
  simp only [State.replied, State.asked, State.setRestart, State.took, Bus.setPlace_setPlace, Bus.setPlace_readyOrder]
  rfl

theorem GuardRow.dropClaim_eq (g : GuardRow) : g.dropClaim =
    if g.guard = .claiming ∨ g.guard = .waiting then { g with guard := .free, waited := false, window := none } else g := by
  unfold GuardRow.dropClaim
  split <;> simp_all

theorem State.announce_eq (s b : State) : s.announce b = { s with bus := (s.announce b).bus } := by
  unfold State.announce
  split <;> rfl

@[simp] theorem State.announce_place (s b : State) (n : Nat) : (s.announce b).bus.place n = s.bus.place n := by
  unfold State.announce
  split
  · rfl
  · exact State.requestStatus_place s n

/-- R101, R179: COMMISSION entered, and the reply OK. -/
theorem State.asked_commission (s : State) (kind : Byte) (r : ServiceReq) (n : Nat) :
    ∃ b : Bus, b.place n = .ready (s.replyTo kind r 1 []) ∧
      (s.asked kind r n).enterCommission.answer n (.reply .ok []) = { s with
        comm := { s.comm with
          mode := .commission, jumper := r.jumper, strapLevel := r.straps
          working := some (match s.comm.record with | some q => q.bytes | none => List.replicate 152 0) }
        zones := s.zones.dropClaims, bus := b } := by
  let u := (s.asked kind r n).enterCommission
  have place : u.bus.place n = .reserved (keptOf kind r) :=
    (State.announce_place _ _ n).trans (s.asked_place kind r n)
  have entered : u = { s.asked kind r n with
      comm := { (s.asked kind r n).comm with
        mode := .commission
        working := some (match s.comm.record with | some q => q.bytes | none => List.replicate 152 0) }
      zones := s.zones.dropClaims, bus := u.bus } := State.announce_eq _ _
  have self : u.self = s.self := by rw [entered]; rfl
  refine ⟨({ u.bus.setPlace n (.ready (s.replyTo kind r 1 [])) with
      readyOrder := u.bus.readyOrder ++ [n] } : Bus).startSilence, ?_,
    (State.handReply_kept (s := s) place self .ok []).trans ?_⟩
  · rw [Bus.startSilence_place]
    exact Bus.setPlace_place _ _ _
  · rw [entered]
    rfl

/-- R179: who may enter COMMISSION with the jumper. -/
theorem State.ownCommissionEnter_enters {s : State} (jumper : s.comm.jumper = true)
    (ready : s.comm.mode = .unconfigured ∨ s.comm.mode = .operational ∧ s.mayCommission = true) :
    s.ownCommissionEnter = (s.enterCommission, .reply .ok []) := by
  rcases ready with mode | ⟨mode, may⟩
  · simp [State.ownCommissionEnter, jumper, mode]
  · simp [State.ownCommissionEnter, jumper, mode, may]

/-- Settles O50: each owner's own choice, answered in the place kept for the request. -/
theorem modeRequests : Obligations.ModeRequests := by
  intro s r n requested restart quiet free armed
  have enter (a : State × Answer) (h : (s.asked 6 r n).ownCommissionEnter = a) :
      exec (.commissionEnter r) s = .next (a.1.answer n a.2) := h ▸ live_request requested restart 6 State.ownCommissionEnter
  have leave (a : State × Answer) (h : (s.asked 7 r n).ownCommissionExit = a) :
      exec (.commissionExit r) s = .next (a.1.answer n a.2) := h ▸ live_request requested restart 7 State.ownCommissionExit
  have again (a : State × Answer) (h : (s.asked 15 r n).ownRestart = a) :
      exec (.restart r) s = .next (a.1.answer n a.2) := h ▸ live_request requested restart 15 State.ownRestart
  have may (k : Byte) : (s.asked k r n).mayCommission = true ↔ quiet := s.mayCommission_iff
  have mayRestart (k : Byte) : (s.asked k r n).mayRestart = true ↔ free := s.mayRestart_iff
  have jumperOf (k : Byte) : (s.asked k r n).comm.jumper = r.jumper := rfl
  have modeOf (k : Byte) : (s.asked k r n).comm.mode = s.comm.mode := rfl
  refine ⟨fun jumper => ?_, fun jumper mode => ?_, fun jumper mode busy => ?_, fun jumper ready => ?_, fun mode => ?_,
    fun mode ok => ?_, fun mode busy => ?_, fun ok => ?_, fun busy => ?_⟩
  · rw [enter (s.asked 6 r n, .reply .refusedState []) (by simp [State.ownCommissionEnter, jumperOf, jumper])]
    exact congrArg _ (s.asked_reply 6 r n _ [])
  · rw [enter (s.asked 6 r n, .reply .ok []) (by simp [State.ownCommissionEnter, jumperOf, jumper, modeOf, mode])]
    exact congrArg _ (s.asked_reply 6 r n _ [])
  · rw [enter (s.asked 6 r n, .reply .busy [])
      (by simp [State.ownCommissionEnter, jumperOf, jumper, modeOf, mode, may, busy])]
    exact congrArg _ (s.asked_reply 6 r n _ [])
  · obtain ⟨b, place, entered⟩ := s.asked_commission 6 r n
    refine ⟨_, (enter _ (State.ownCommissionEnter_enters jumper ?_)).trans (congrArg _ entered), ?_, ?_, ?_, rfl⟩
    · exact ready.imp id (And.imp id (may 6).mpr)
    · exact State.readyReply_of_ready place
    · rw [← jumper] <;> rfl
    · exact List.map_congr_left fun g _ => g.dropClaim_eq
  · rw [leave (s.asked 7 r n, .reply .refusedState []) (by simp [State.ownCommissionExit, modeOf, mode])]
    exact congrArg _ (s.asked_reply 7 r n _ [])
  · rw [leave ((s.asked 7 r n).setRestart, .reply .ok [])
      (by simp [State.ownCommissionExit, modeOf, mode, mayRestart, ok])]
    exact congrArg _ (s.asked_restart 7 r n)
  · rw [leave (s.asked 7 r n, .reply .busy []) (by simp [State.ownCommissionExit, modeOf, mode, mayRestart, busy])]
    exact congrArg _ (s.asked_reply 7 r n _ [])
  · rw [again ((s.asked 15 r n).setRestart, .reply .ok []) (by simp [State.ownRestart, mayRestart, ok])]
    exact congrArg _ (s.asked_restart 15 r n)
  · rw [again (s.asked 15 r n, .reply .busy []) (by simp [State.ownRestart, mayRestart, busy])]
    exact congrArg _ (s.asked_reply 15 r n _ [])

end Sys2Proof.Machine
end

-- ==== Proofs: what a report leaves of the bus, the peers and the zone wait ====
section
/-! SUPPORT. What a stop, the end of a conversion and a report change beside the axes (R107, R125, R137, R160, R165 to R175):
the peer records, the zone wait timer, the status pending flag, the silence timer and the last outcome. -/

namespace Sys2Proof.Machine

/-! ## What a stop changes -/

/-- Going from `s` to `t` touches the axes, the sequencer and the enable monitor alone. -/
def MotionOnly (s t : State) : Prop := t = { s with slew := t.slew, rake := t.rake, seq := t.seq, mon := t.mon }

theorem MotionOnly.refl (s : State) : MotionOnly s s := rfl

theorem MotionOnly.trans {s t u : State} (h : MotionOnly s t) (k : MotionOnly t u) : MotionOnly s u := by
  unfold MotionOnly at h k ⊢
  rw [k, h]

theorem MotionOnly.ofSetAxis (s : State) (x : Axis) (a : AxisUnit) : MotionOnly s (s.setAxis x a) := by cases x <;> rfl

theorem MotionOnly.ofSeqMon (s : State) (q : Sequencer) (m : EnableMonitor) : MotionOnly s { s with seq := q, mon := m } := rfl

theorem MotionOnly.peers {s t : State} (h : MotionOnly s t) : t.peers = s.peers := by rw [h]
theorem MotionOnly.zones {s t : State} (h : MotionOnly s t) : t.zones = s.zones := by rw [h]
theorem MotionOnly.bus {s t : State} (h : MotionOnly s t) : t.bus = s.bus := by rw [h]
theorem MotionOnly.comm {s t : State} (h : MotionOnly s t) : t.comm = s.comm := by rw [h]

theorem State.tellStopped_motionOnly (s : State) (x : Axis) (q : Option Requester) : MotionOnly s (s.tellStopped x q) := by
  match q with
  | none => exact .refl s
  | some .sequencer =>
    simp only [State.tellStopped]
    split
    · exact .ofSeqMon s _ s.mon
    · exact .refl s
  | some .enableMonitor =>
    simp only [State.tellStopped]
    split
    · split
      · exact .ofSeqMon s s.seq _
      · exact .refl s
    · exact .refl s
  | some .positionUnit =>
    have legEnds := MotionOnly.ofSetAxis s x { s.axis x with leg := none }
    simp only [State.tellStopped]
    split
    · exact .refl s
    · split
      · exact legEnds.trans (.ofSeqMon _ _ _)
      · exact legEnds

theorem State.stopEnded_motionOnly (s : State) (x : Axis) : MotionOnly s (s.stopEnded x) := by
  have legEnds := MotionOnly.ofSetAxis s x { s.axis x with leg := none }
  unfold State.stopEnded
  split
  · simp only
    split
    · exact legEnds.trans (.ofSeqMon _ _ _)
    · exact legEnds
  · exact .refl s

theorem State.stopAxis_motionOnly (s : State) (x : Axis) (k : StopKind) : MotionOnly s (s.stopAxis x k) := by
  have told (a : AxisUnit) (q : Option Requester) : MotionOnly s ((s.setAxis x a).tellStopped x q) :=
    (MotionOnly.ofSetAxis s x a).trans (State.tellStopped_motionOnly _ x q)
  have ended (a : AxisUnit) (q : Option Requester) : MotionOnly s (((s.setAxis x a).tellStopped x q).stopEnded x) :=
    (told a q).trans (State.stopEnded_motionOnly _ x)
  unfold State.stopAxis
  simp only
  split
  · exact told _ _
  · exact told _ _
  all_goals exact ended _ _

theorem State.stopBoth_motionOnly (s : State) (k : StopKind) : MotionOnly s (s.stopBoth k) :=
  (s.stopAxis_motionOnly .rake k).trans (State.stopAxis_motionOnly _ .slew k)

theorem State.endRun_motionOnly (s : State) : MotionOnly s s.endRun := by
  unfold State.endRun
  split
  · exact .refl s
  · exact .ofSeqMon s s.seq _
  · exact (MotionOnly.ofSeqMon s s.seq _).trans (.ofSetAxis _ _ _)

/-! ## What a request for a status changes -/

/-- Going from `s` to `t` only sets the status pending flag, and starts the silence timer only in a mode that sends (R160, R161,
R166). -/
structure Asks (s t : State) : Prop where
  comm : t.comm = s.comm
  pending : s.bus.statusPending = true → t.bus.statusPending = true
  silence : s.sends = false → t.bus.silence = s.bus.silence

theorem Asks.trans {s t u : State} (h : Asks s t) (k : Asks t u) : Asks s u where
  comm := k.comm.trans h.comm
  pending p := k.pending (h.pending p)
  silence q := (k.silence (by unfold State.sends; rw [h.comm]; exact q)).trans (h.silence q)

theorem Asks.ofSame {s t : State} (comm : t.comm = s.comm) (pending : t.bus.statusPending = s.bus.statusPending)
    (silence : t.bus.silence = s.bus.silence) : Asks s t := ⟨comm, fun p => pending.trans p, fun _ => silence⟩

theorem MotionOnly.asks {s t : State} (h : MotionOnly s t) : Asks s t := .ofSame h.comm (by rw [h]) (by rw [h])

theorem State.requestStatus_asks (s : State) : Asks s s.requestStatus := by
  refine ⟨rfl, fun _ => s.requestStatus_pending, fun silent => ?_⟩
  unfold State.requestStatus
  simp [silent]

theorem State.asks_of_request {s t : State} (comm : t.comm = s.comm) (pending : t.bus.statusPending = s.bus.statusPending)
    (silence : t.bus.silence = s.bus.silence) : Asks s t.requestStatus :=
  (Asks.ofSame comm pending silence).trans t.requestStatus_asks

theorem State.requestStatus_outcome (s : State) : s.requestStatus.bus.outcome = s.bus.outcome := by
  rw [State.requestStatus_bus]

theorem State.judgeZoneWait_asks (s : State) : Asks s s.judgeZoneWait := by
  rw [State.judgeZoneWait_eq]; exact .ofSame rfl rfl rfl

theorem State.giveOutcome_asks (s : State) (c n : Nat) (o : CmdOutcome) : Asks s (s.giveOutcome c n o) :=
  State.asks_of_request (t := { s with bus := { s.bus with outcome := some { console := c, tag := n, outcome := o } } })
    rfl rfl rfl

/-! ## The end of a conversion -/

theorem Sequencer.converting_iff (q : Sequencer) : q.converting = true ↔ q.state = .running ∨ q.state = .paused := by
  simp [Sequencer.converting]

theorem State.endConversion_atEase {s : State} (h : s.seq.state.atEase = true) (o : Option CmdOutcome) :
    s.endConversion o = s := by
  unfold State.endConversion
  split <;> simp_all [SeqState.atEase]

theorem State.endConversion_converting {s : State} (h : s.seq.converting = true) (o : Option CmdOutcome) :
    s.endConversion o = s.seqToAborted := by
  unfold State.endConversion
  rcases (Sequencer.converting_iff _).mp h with e | e <;> simp [e]

/-- An ARMED conversion goes to IDLE, with the outcome given if there is one. -/
theorem State.endConversion_armed {s : State} (h : s.seq.state = .armed) (o : Option CmdOutcome) :
    s.endConversion o = s.seqToIdle ∨ ∃ c n q, s.endConversion o = s.seqToIdle.giveOutcome c n q := by
  unfold State.endConversion
  rw [h]
  simp only
  split
  · exact .inr ⟨_, _, _, rfl⟩
  · exact .inl rfl

/-- A conversion is at ease, ARMED or in progress. -/
theorem Sequencer.state_cases (q : Sequencer) : q.state.atEase = true ∨ q.state = .armed ∨ q.converting = true := by
  rcases e : q.state <;> simp [SeqState.atEase, Sequencer.converting, e]

theorem State.endConversion_asks (s : State) (o : Option CmdOutcome) : Asks s (s.endConversion o) := by
  have idle : Asks s s.seqToIdle := State.asks_of_request rfl rfl rfl
  rcases s.seq.state_cases with ease | armed | converting
  · rw [State.endConversion_atEase ease]; exact .ofSame rfl rfl rfl
  · rcases State.endConversion_armed armed o with e | ⟨c, n, q, e⟩ <;> rw [e]
    · exact idle
    · exact idle.trans (State.giveOutcome_asks _ c n q)
  · rw [State.endConversion_converting converting]
    refine Asks.trans ?_ (State.judgeZoneWait_asks _)
    exact State.asks_of_request rfl rfl rfl

/-- R107: the end of a conversion drops its script peers. -/
theorem State.endConversion_peers (s : State) (o : Option CmdOutcome) :
    (s.endConversion o).peers = if s.seq.state.atEase then s.peers else dropScript s.peers := by
  rcases s.seq.state_cases with ease | armed | converting
  · rw [State.endConversion_atEase ease, if_pos ease]
  · rw [if_neg (by simp [armed, SeqState.atEase])]
    rcases State.endConversion_armed armed o with e | ⟨c, n, q, e⟩ <;> rw [e]
    · rfl
    · rw [State.giveOutcome_eq]; rfl
  · have busy : ¬ s.seq.state.atEase = true := by
      rcases (Sequencer.converting_iff _).mp converting with e | e <;> simp [e, SeqState.atEase]
    rw [State.endConversion_converting converting, if_neg busy, State.seqToAborted, State.judgeZoneWait_eq]
    rfl

/-- R99: the zone wait timer out of PAUSED. -/
theorem State.judgeZoneWait_waitElapsed {s : State} (h : s.seq.state ≠ .paused) :
    s.judgeZoneWait.zones.waitElapsed = if s.zones.travelAsking then s.zones.waitElapsed else 0 := by
  unfold State.judgeZoneWait
  cases s.zones.travelAsking <;> simp [h]

/-- R99: the end of a conversion in progress judges the zone wait. -/
theorem State.endConversion_waitElapsed (s : State) (o : Option CmdOutcome) :
    (s.endConversion o).zones.waitElapsed =
      if s.seq.converting = true ∧ ¬ s.zones.travelAsking = true then 0 else s.zones.waitElapsed := by
  rcases s.seq.state_cases with ease | armed | converting
  · rw [State.endConversion_atEase ease, if_neg]
    rintro ⟨converting, -⟩
    rcases (Sequencer.converting_iff _).mp converting with e | e <;> simp [e, SeqState.atEase] at ease
  · rw [if_neg (by simp [Sequencer.converting, armed])]
    rcases State.endConversion_armed armed o with e | ⟨c, n, q, e⟩ <;> rw [e]
    · rfl
    · rw [State.giveOutcome_eq]; rfl
  · rw [State.endConversion_converting converting, State.seqToAborted,
      State.judgeZoneWait_waitElapsed (show SeqState.aborted ≠ .paused by decide)]
    show (if s.zones.travelAsking then s.zones.waitElapsed else 0) = _
    cases s.zones.travelAsking <;> simp [converting]

/-- R125: only an ARMED command gets an outcome. -/
theorem State.endConversion_outcome_kept {s : State} (h : s.seq.state ≠ .armed) (o : Option CmdOutcome) :
    (s.endConversion o).bus.outcome = s.bus.outcome := by
  rcases s.seq.state_cases with ease | armed | converting
  · rw [State.endConversion_atEase ease]
  · exact absurd armed h
  · rw [State.endConversion_converting converting, State.seqToAborted, State.judgeZoneWait_eq]
    exact State.requestStatus_outcome _

/-! ## The reactions to a stop cause -/

/-- What the reactions do beside the axes, the sequencer and the run. -/
structure ReactsBeside (o : Option CmdOutcome) (s t : State) : Prop where
  asks : Asks s t
  peers : t.peers = if s.seq.state.atEase then s.peers else dropScript s.peers
  waitElapsed : t.zones.waitElapsed =
    if s.seq.converting = true ∧ ¬ s.zones.travelAsking = true then 0 else s.zones.waitElapsed
  outcome_kept : s.seq.state ≠ .armed → t.bus.outcome = s.bus.outcome
  outcome : ∀ c n q, o = some q → s.seq.state = .armed → s.seq.armed = some (c, n) →
    t.bus.outcome = some { console := c, tag := n, outcome := q }

theorem State.reactions_beside (s : State) (k : StopKind) (o : Option CmdOutcome) :
    ReactsBeside o s (((s.stopBoth k).endConversion o).endRun) := by
  have stopped := s.stopBoth_motionOnly k
  have marks := s.stopBoth_marks k
  have ended := ((s.stopBoth k).endConversion o).endRun_motionOnly
  refine ⟨(stopped.asks.trans (State.endConversion_asks _ o)).trans ended.asks, ?_, ?_, fun idle => ?_,
    fun c n q given armed command => ?_⟩
  · rw [ended.peers, State.endConversion_peers, marks.state, stopped.peers]
  · rw [ended.zones, State.endConversion_waitElapsed, marks.converting, stopped.zones]
  · rw [ended.bus, State.endConversion_outcome_kept (marks.state ▸ idle), stopped.bus]
  · have same : (s.stopBoth k).seq.armed = s.seq.armed := by rw [marks.1]
    rw [ended.bus, given, State.endConversion_outcome q (marks.state.trans armed) (same.trans command)]

/-- Reactions that find no conversion to end touch the motion alone. -/
theorem State.reactions_motionOnly {s : State} (h : s.seq.state.atEase = true) (k : StopKind) (o : Option CmdOutcome) :
    MotionOnly s (((s.stopBoth k).endConversion o).endRun) := by
  rw [State.endConversion_atEase (by rw [(s.stopBoth_marks k).state]; exact h)]
  exact (s.stopBoth_motionOnly k).trans (State.endRun_motionOnly _)

/-- After a conversion has been ended there is none to end. -/
theorem Sequencer.endedFrom.atEase {q r : Sequencer} (h : q.endedFrom r) : r.state.atEase = true := by
  unfold Sequencer.endedFrom at h
  rcases e : q.state <;> simp only [e] at h
  · simp [h, e, SeqState.atEase]
  · simp [h.1, SeqState.atEase]
  · simp [h.1, SeqState.atEase]
  · simp [h.1, SeqState.atEase]
  · simp [h, e, SeqState.atEase]
  · simp [h, e, SeqState.atEase]

/-! ## A report, in its parts -/

/-- The state as a report latches it (R167). -/
def State.latched (s : State) (k : FaultKind) (f : FaultFields) : State := (s.latch k f).clearSent k

/-- The state after the orders that follow every report (R169). -/
def State.reacted (s : State) (k : FaultKind) (f : FaultFields) : State :=
  (((s.latched k f).stopBoth .quick).endConversion (some .refusedFault)).endRun

theorem State.latched_eq (s : State) (k : FaultKind) (f : FaultFields) :
    s.latched k f = { s with fault := (s.latched k f).fault, bus := (s.latched k f).bus } := by
  unfold State.latched State.latch State.clearSent
  split <;> split <;> (try split) <;> rfl

theorem State.latched_asks (s : State) (k : FaultKind) (f : FaultFields) : Asks s (s.latched k f) := by
  have cleared (t : State) : Asks t (t.clearSent k) := by
    unfold State.clearSent
    split <;> exact .ofSame rfl rfl rfl
  have latches : Asks s (s.latch k f) := by
    unfold State.latch
    split
    · exact State.asks_of_request rfl rfl rfl
    · split
      · exact .ofSame rfl rfl rfl
      · exact State.asks_of_request rfl rfl rfl
  exact latches.trans (cleared _)

theorem State.latched_outcome (s : State) (k : FaultKind) (f : FaultFields) :
    (s.latched k f).bus.outcome = s.bus.outcome := by
  have cleared (t : State) : (t.clearSent k).bus = t.bus := by unfold State.clearSent; split <;> rfl
  unfold State.latched
  rw [cleared]
  unfold State.latch
  split
  · exact State.requestStatus_outcome _
  · split
    · rfl
    · exact State.requestStatus_outcome _

/-- R160: a kind not held before asks for a status. -/
theorem State.latched_pending {s : State} {k : FaultKind} (h : k ∉ s.fault.held) (f : FaultFields) :
    (s.latched k f).bus.statusPending = true := by
  have cleared (t : State) : (t.clearSent k).bus = t.bus := by unfold State.clearSent; split <;> rfl
  unfold State.latched
  rw [cleared]
  unfold State.latch
  split
  · exact State.requestStatus_pending _
  · next r record =>
    rw [if_neg]
    · exact State.requestStatus_pending _
    · rintro (same | seen)
      · exact h (by simp [FaultUnit.held, record, same])
      · exact h (by simp [FaultUnit.held, record, seen])

theorem State.reacted_reacts (s : State) (k : FaultKind) (f : FaultFields) : Reacts .quick s (s.reacted k f) := by
  have same := s.latched_eq k f
  have frame : Frame s (s.latched k f) := (s.latch_alike k f).1.trans ((s.latch k f).clearSent_alike k).1
  exact ((s.latched k f).reactions_react .quick _).ofAlike frame (by rw [same]) (by rw [same]) (by rw [same]) (by rw [same])

/-- R171: a DUPLICATE_STATION isolates after its orders, and in ISOLATED no line is sensed. -/
theorem State.report_duplicate (s : State) (f : FaultFields) :
    s.report .duplicateStation f = (s.reacted .duplicateStation f).enterIsolated := by
  have isolated : ((s.latched .duplicateStation f).faultReactions .duplicateStation) =
      (s.reacted .duplicateStation f).enterIsolated := by
    unfold State.faultReactions
    exact if_pos rfl
  show State.senseOwn ((s.latched .duplicateStation f).faultReactions .duplicateStation) _ = _
  rw [isolated]
  exact if_neg fun sensed => nomatch sensed.2.2

/-- R169, R175: any other report is its orders, and the sensing of a line it drives finds motion alone to act on. -/
theorem State.report_motionOnly (s : State) {k : FaultKind} (f : FaultFields) (hk : k ≠ .duplicateStation) :
    MotionOnly (s.reacted k f) (s.report k f) := by
  have ordered : (s.latched k f).faultReactions k = s.reacted k f := by
    unfold State.faultReactions
    exact if_neg hk
  show MotionOnly _ (State.senseOwn ((s.latched k f).faultReactions k) _)
  rw [ordered]
  unfold State.senseOwn
  split
  · exact State.reactions_motionOnly (s.reacted_reacts k f).seq.atEase _ _
  · exact .refl _

end Sys2Proof.Machine
end

-- ==== Proofs: a latching report ====
section
/-! SETTLES O31. A report fills or extends the fault record, and its orders halt both axes and end the conversion and the run.
-/

namespace Sys2Proof.Machine

/-! ## What latching leaves of the fault unit -/

theorem State.faultPlace_eq (s : State) :
    s.faultPlace = if s.seq.state = .armed then some (s.seq.layout, 0)
      else if s.seq.converting then some (s.seq.layout, s.seq.step) else none := by
  unfold State.faultPlace
  cases e : s.seq.state <;> simp [Sequencer.converting, e]

/-- R167: the first report fills the record, and later ones keep it. -/
theorem State.latch_record (s : State) (k : FaultKind) (f : FaultFields) :
    (s.latch k f).fault.record =
      some (s.fault.record.getD { kind := k, fields := f, place := s.faultPlace, slewE := s.slew.e, rakeE := s.rake.e }) := by
  unfold State.latch
  split
  · next empty => rw [State.requestStatus_fault, empty]; rfl
  · next r full =>
    split
    · rw [full]; rfl
    · rw [State.requestStatus_fault, full]; exact full

/-- R167: the kinds held are the reported one and those held before. -/
theorem State.mem_latch_held (s : State) (k j : FaultKind) (f : FaultFields) :
    j ∈ (s.latch k f).fault.held ↔ j = k ∨ j ∈ s.fault.held := by
  constructor
  · intro m
    unfold State.latch at m
    split at m
    · next empty =>
      rw [State.requestStatus_fault] at m
      simpa [FaultUnit.held, FaultUnit.withDrive, empty] using m
    · next r full =>
      split at m
      · exact .inr m
      · rw [State.requestStatus_fault] at m
        simp only [FaultUnit.held, FaultUnit.withDrive, full, List.mem_cons, mem_insertKind_iff] at m ⊢
        exact or_left_comm.mp m
  · rintro (rfl | m)
    · exact s.latch_held j f
    · exact s.latch_keepsHeld k f j m

/-- R170, R175: a line that is driven is sensed ASSERTED, and latching senses nothing else. -/
theorem State.latch_lineAsserted {s : State} (h : s.lineDriveOk) (k : FaultKind) (f : FaultFields) :
    (s.latch k f).fault.lineAsserted = (s.fault.lineAsserted || (s.latch k f).fault.drivesStop) := by
  unfold State.latch
  split
  · rw [State.requestStatus_fault]; rfl
  · split
    · cases driven : s.fault.drivesStop
      · simp
      · simp [h.2 driven]
    · rw [State.requestStatus_fault]; rfl

theorem State.latch_sentSinceSilence (s : State) (k : FaultKind) (f : FaultFields) :
    (s.latch k f).fault.sentSinceSilence = s.fault.sentSinceSilence := by
  unfold State.latch
  split
  · rw [State.requestStatus_fault]; rfl
  · split
    · rfl
    · rw [State.requestStatus_fault]; rfl

/-- R167: only a BUS_SILENT clears the sent-since-silence flag, and nothing else of the fault unit. -/
theorem State.clearSent_fault (s : State) (k : FaultKind) :
    (s.clearSent k).fault = { s.fault with sentSinceSilence := s.fault.sentSinceSilence && !decide (k = .busSilent) } := by
  unfold State.clearSent
  by_cases silent : k = .busSilent <;> simp [silent]

/-! ## What the orders of a report leave -/

/-- What the orders of a report leave as they are is the same after the sensing of its line, whatever the kind. -/
theorem State.report_ordered (s : State) (k : FaultKind) (f : FaultFields) :
    (s.report k f).peers = (s.reacted k f).peers ∧ (s.report k f).bus.outcome = (s.reacted k f).bus.outcome := by
  by_cases dup : k = .duplicateStation
  · rw [dup, State.report_duplicate]; exact ⟨rfl, rfl⟩
  · have same := s.report_motionOnly f dup
    exact ⟨same.peers, by rw [same.bus]⟩

/-- The axes, the conversion and the run as a report of any kind leaves them (R169). -/
theorem State.report_halts (s : State) (k : FaultKind) (f : FaultFields) :
    s.slew.stoppedBy .quick (s.report k f).slew ∧ s.rake.stoppedBy .quick (s.report k f).rake ∧
      s.seq.endedFrom (s.report k f).seq ∧ (s.report k f).mon = { s.mon with run := .none } := by
  by_cases dup : k = .duplicateStation
  · have reacts := s.reacted_reacts k f
    rw [dup] at reacts ⊢
    rw [State.report_duplicate]
    exact ⟨(reacts.axis .slew).stoppedBy, (reacts.axis .rake).stoppedBy, reacts.seq, reacts.mon⟩
  · have reacts := s.report_reacts k f dup
    exact ⟨(reacts.axis .slew).stoppedBy, (reacts.axis .rake).stoppedBy, reacts.seq, reacts.mon⟩

/-- What the orders of a report do beside the axes, seen from the state before its latching. -/
theorem State.reacted_beside (s : State) (k : FaultKind) (f : FaultFields) :
    ReactsBeside (some .refusedFault) s (s.reacted k f) := by
  have same := s.latched_eq k f
  have beside := (s.latched k f).reactions_beside .quick (some .refusedFault)
  have seq : (s.latched k f).seq = s.seq := by rw [same]
  have zones : (s.latched k f).zones = s.zones := by rw [same]
  have peers : (s.latched k f).peers = s.peers := by rw [same]
  obtain ⟨asks, left, elapsed, kept, given⟩ := beside
  rw [seq] at left elapsed kept given
  rw [peers] at left
  rw [zones] at elapsed
  exact ⟨(s.latched_asks k f).trans asks, left, elapsed, fun idle => (kept idle).trans (s.latched_outcome k f), given⟩

/-- R160: after a report of a kind not held before a status is to be sent. -/
theorem State.reacted_pending {s : State} {k : FaultKind} (h : k ∉ s.fault.held) (f : FaultFields) :
    (s.reacted k f).bus.statusPending = true :=
  ((s.latched k f).reactions_beside .quick (some .refusedFault)).asks.pending (State.latched_pending h f)

/-- Settles O31: the record and the kinds held by the lemmas of the latching, the axes, the conversion and the run by the
reactions of a report, and what else may change by what a stop, the end of a conversion and a request for a status leave. -/
theorem reportTaken : Obligations.ReportTaken := by
  unfold Obligations.ReportTaken
  intro s k f line
  obtain ⟨slew, rake, seq, mon⟩ := s.report_halts k f
  obtain ⟨peers, outcome⟩ := s.report_ordered k f
  have beside := s.reacted_beside k f
  have fault : (s.report k f).fault = _ := (s.report_fault k f).trans (State.clearSent_fault _ k)
  have held j : j ∈ (s.report k f).fault.held ↔ j ∈ (s.latch k f).fault.held := by rw [fault]; rfl
  refine ⟨?_, fun j => (held j).trans (s.mem_latch_held k j f), (s.report_calm k f).line line, ?_, s.report_notice k f, ?_,
    slew, rake, seq, mon, peers.trans beside.peers, fun single => ?_, fun c n armed command => ?_, fun idle => ?_,
    fun single => ⟨(s.report_reacts k f single).stopsOnly, fun fresh => ?_, fun silent => ?_⟩, fun dup => ?_⟩
  · rw [fault]
    refine (s.latch_record k f).trans ?_
    rw [s.faultPlace_eq]
    cases s.fault.record <;> rfl
  · rw [fault, ← s.latch_sentSinceSilence k f]
  · rw [fault]
    exact State.latch_lineAsserted line k f
  · rw [(s.report_motionOnly f single).zones, beside.waitElapsed]
    simp only [ZoneGuard.travelAsking_iff]
  · exact outcome.trans (beside.outcome c n _ rfl armed command)
  · exact outcome.trans (beside.outcome_kept idle)
  · rw [(s.report_motionOnly f single).bus]
    exact State.reacted_pending fresh f
  · rw [(s.report_motionOnly f single).bus]
    exact beside.asks.silence silent
  · rw [dup, State.report_duplicate]
    rfl

end Sys2Proof.Machine
end

-- ==== Proofs: the ages of the peers and the zone clocks ====
section
/-! SETTLES O34 and O35. An event of the zone guard changes the guard table and the bus alone, and of the rows only those it
names and the one that its selection chooses (R85 to R91). -/

namespace Sys2Proof.Machine

/-! ## What an event of the zone guard changes -/

/-- Going from `s` to `t` touches the zone guard and the bus alone. -/
def ZonesOnly (s t : State) : Prop := t = { s with zones := t.zones, bus := t.bus }

theorem ZonesOnly.refl (s : State) : ZonesOnly s s := rfl

theorem ZonesOnly.trans {s t u : State} (h : ZonesOnly s t) (k : ZonesOnly t u) : ZonesOnly s u := by
  unfold ZonesOnly at h k ⊢
  rw [k, h]

theorem State.modRow_zonesOnly (s : State) (i : Nat) (f : GuardRow → GuardRow) : ZonesOnly s (s.modRow i f) := rfl

theorem State.select_zonesOnly (s : State) : ZonesOnly s s.select := by
  unfold ZonesOnly
  rw [State.select_eq]

theorem State.selectFor_zonesOnly (s : State) (n : Nat) : ZonesOnly s (s.selectFor n) := by
  unfold State.selectFor
  split
  · exact s.select_zonesOnly
  · exact .refl s

theorem State.judgeZoneWait_zonesOnly (s : State) : ZonesOnly s s.judgeZoneWait := by
  unfold ZonesOnly
  rw [State.judgeZoneWait_eq]

theorem State.announce_zonesOnly (s b : State) : ZonesOnly s (s.announce b) := by
  unfold ZonesOnly
  rw [State.announce_eq]

/-- The two steps that end every event of the zone guard leave the rows. -/
theorem State.judged_rows (s b : State) : (s.judgeZoneWait.announce b).zones.rows = s.zones.rows :=
  ((State.announce_frame _ b).rows).trans s.judgeZoneWait_frame.rows

theorem State.judged_zonesOnly (s b : State) : ZonesOnly s (s.judgeZoneWait.announce b) :=
  s.judgeZoneWait_zonesOnly.trans (State.announce_zonesOnly _ b)

theorem State.zoneFreshness_zonesOnly (s : State) (n : Nat) (left : Bool) : ZonesOnly s (s.zoneFreshness n left) := by
  have withdrawn : ZonesOnly s (if left then s.withdrawStale n else s) := by split <;> exact rfl
  exact (withdrawn.trans (State.selectFor_zonesOnly _ n)).trans (State.judged_zonesOnly _ s)

theorem State.windowExpired_zonesOnly (s : State) : ZonesOnly s s.windowExpired := by
  unfold State.windowExpired
  split
  · exact .refl s
  · exact ((State.modRow_zonesOnly s _ _).trans (State.select_zonesOnly _)).trans (State.judged_zonesOnly _ s)

/-! ## What a selection leaves of a row -/

/-- A selection leaves a row or makes it claim or wait (R86, R87). -/
theorem State.select_row {s : State} {i : Nat} {g : GuardRow} (row : s.zones.rows[i]? = some g) :
    s.select.zones.rows[i]? = some g ∨ s.select.zones.rows[i]? = some (s.claimOrWait g) := by
  unfold State.select
  split
  · split
    · next j chosen =>
      by_cases same : j = i
      · exact .inr (by simp [State.modRow, same, row])
      · exact .inl ((List.getElem?_modify_ne s.claimOrWait _ same).trans row)
    · exact .inl row
  · exact .inl row

/-- A row that waits with its flag goes on waiting while a peer is not clear (R87). -/
theorem State.select_waits {s : State} {i : Nat} {g : GuardRow} (row : s.zones.rows[i]? = some g.toWaiting)
    (blocked : s.allClear g.toWaiting = false) : s.select.zones.rows[i]? = some g.toWaiting := by
  rcases State.select_row row with same | claims
  · exact same
  · rw [claims, State.claimOrWait, blocked]
    rfl

/-- A selection for a station leaves a waiting row whose peer is not clear. -/
theorem State.selectFor_waits {s : State} (n : Nat) {i : Nat} {g : GuardRow} (row : s.zones.rows[i]? = some g.toWaiting)
    (blocked : s.allClear g.toWaiting = false) : (s.selectFor n).zones.rows[i]? = some g.toWaiting := by
  unfold State.selectFor
  split
  · exact State.select_waits row blocked
  · exact row

/-! ## Peers that are not clear -/

/-- R82: a peer whose record is not FRESH is not clear. -/
theorem State.peerClear_false {s : State} {n : Nat} (h : ∀ o, findPeer s.peers n = some o → o.freshness ≠ .fresh)
    (g : GuardRow) : s.peerClear g n = false := by
  unfold State.peerClear
  split
  · next o found =>
    split
    · next fresh _ => exact absurd fresh (h o found)
    · rfl
  · rfl

theorem State.allClear_false {s : State} {n : Nat} {g : GuardRow} (mem : n ∈ g.zone.peers) (h : s.peerClear g n = false) :
    s.allClear g = false :=
  List.all_eq_false.mpr ⟨n, mem, by simp [h]⟩

/-- The record of a station after a change of its own record. -/
theorem findPeer_modPeer {ps : List PeerRecord} {n : Nat} {r : PeerRecord} (found : findPeer ps n = some r)
    {f : PeerRecord → PeerRecord} (same : ∀ o, (f o).station = o.station) :
    findPeer (modPeer n f ps) n = some (f r) := by
  induction ps with
  | nil => cases found
  | cons p ps ih =>
    by_cases own : p.station = n
    · cases (List.find?_cons_of_pos (by simpa using own) : findPeer (p :: ps) n = some p).symm.trans found
      simp [findPeer, modPeer, own, same]
    · have rest : findPeer (p :: ps) n = findPeer ps n := List.find?_cons_of_neg (by simpa using own)
      rw [rest] at found
      simpa [findPeer, modPeer, own] using ih found

/-! ## A record leaves FRESH, or STALE -/

theorem State.peerToStale_of {s : State} {n : Nat} {r : PeerRecord} (found : findPeer s.peers n = some r)
    (fresh : r.freshness = .fresh) : s.peerToStale n =
      if r.zoneRole then ({ s with peers := modPeer n PeerRecord.toStale s.peers } : State).zoneFreshness n true
      else { s with peers := modPeer n PeerRecord.toStale s.peers } := by
  simp [State.peerToStale, State.freshnessOf, State.zonePeer, found, fresh]

theorem State.peerToLost_of {s : State} {n : Nat} {r : PeerRecord} (found : findPeer s.peers n = some r)
    (stale : r.freshness = .stale) : s.peerToLost n =
      if r.zoneRole then
        (({ s with peers := modPeer n PeerRecord.toLost s.peers } : State).raiseNotice .peerLost).zoneFreshness n false
      else ({ s with peers := modPeer n PeerRecord.toLost s.peers } : State).raiseNotice .peerLost := by
  simp [State.peerToLost, State.freshnessOf, State.zonePeer, found, stale]

/-- A record of another freshness does not leave this one. -/
theorem State.freshnessOf_ne {s : State} {n : Nat} {f : Freshness}
    (h : ∀ o, findPeer s.peers n = some o → o.freshness ≠ f) : s.freshnessOf n ≠ some f := by
  intro e
  obtain ⟨o, found, same⟩ := Option.map_eq_some_iff.mp e
  exact h o found same

/-- R89: the CLAIMING row of a zone that a station shares waits once its record has left FRESH. -/
theorem State.zoneFreshness_withdraws {s : State} {n i : Nat} {g : GuardRow} (row : s.zones.rows[i]? = some g)
    (claiming : g.guard = .claiming) (shares : n ∈ g.zone.peers)
    (left : ∀ o, findPeer s.peers n = some o → o.freshness ≠ .fresh) :
    (s.zoneFreshness n true).zones.rows[i]? = some g.toWaiting := by
  have withdrawn : (s.withdrawStale n).zones.rows[i]? = some g.toWaiting := by
    simp [State.withdrawStale, row, claiming, shares]
  have blocked : (s.withdrawStale n).allClear g.toWaiting = false :=
    State.allClear_false shares (State.peerClear_false left _)
  refine Eq.trans ?_ (State.selectFor_waits n withdrawn blocked)
  exact congrArg (·[i]?) (State.judged_rows _ s)

/-- Settles O34: each age changes the record, and its event of the zone guard nothing but the table and the bus; a claim that
the record's station shares waits through the selection, since the station is not clear. -/
theorem peerAges : Obligations.PeerAges := by
  unfold Obligations.PeerAges
  intro s m r running n aged
  have stale : exec (.peerStale m) s = .next (s.peerToStale n) := live_of_not_inReset _ running
  have lost : exec (.peerLost m) s = .next (s.peerToLost n) := live_of_not_inReset _ running
  refine ⟨fun found fresh => ?_, fun found was => ?_, fun other => ?_, fun other => ?_⟩
  · rw [stale, State.peerToStale_of found fresh]
    cases role : r.zoneRole
    · exact ⟨s.zones, s.bus, rfl, fun _ => ⟨rfl, rfl⟩, nofun⟩
    · rw [if_pos rfl]
      refine ⟨_, _, congrArg _ (State.zoneFreshness_zonesOnly _ n true), nofun, fun _ i g row claiming shares => ?_⟩
      refine ⟨g.toWaiting, State.zoneFreshness_withdraws row claiming shares fun o here => ?_, rfl, rfl, rfl⟩
      cases (findPeer_modPeer found (f := PeerRecord.toStale) fun _ => rfl).symm.trans here
      exact nofun
  · rw [lost, State.peerToLost_of found was]
    split
    · exact ⟨_, _, congrArg _ (State.zoneFreshness_zonesOnly _ n false)⟩
    · exact ⟨s.zones, s.bus, rfl⟩
  · rw [stale, State.peerToStale, if_neg (State.freshnessOf_ne other)]
  · rw [lost, State.peerToLost, if_neg (State.freshnessOf_ne other)]

/-! ## The one CLAIMING row -/

/-- Of a list with at most one element that passes a test, two places that pass it are one. -/
theorem index_unique_of_countP {α : Type} (p : α → Bool) {l : List α} (once : l.countP p ≤ 1) {i j : Nat} {a b : α}
    (ha : l[i]? = some a) (hb : l[j]? = some b) (pa : p a = true) (pb : p b = true) : i = j := by
  have later {l : List α} {k : Nat} {c : α} (h : l[k]? = some c) (pc : p c = true) : 0 < l.countP p :=
    List.countP_pos_iff.mpr ⟨c, List.mem_of_getElem? h, pc⟩
  induction l generalizing i j with
  | nil => simp at ha
  | cons x xs ih =>
    rw [List.countP_cons] at once
    match i, j with
    | 0, 0 => rfl
    | 0, j + 1 =>
      cases ha
      have := later (l := xs) hb pb
      simp only [pa, if_true] at once
      omega
    | i + 1, 0 =>
      cases hb
      have := later (l := xs) ha pa
      simp only [pb, if_true] at once
      omega
    | i + 1, j + 1 => exact congrArg (· + 1) (ih (by omega) ha hb)

theorem State.claiming_unique {s : State} (once : s.oneClaim) {i j : Nat} {g r : GuardRow} (row : s.zones.rows[i]? = some g)
    (other : s.zones.rows[j]? = some r) (claiming : g.guard = .claiming) (also : r.guard = .claiming) : j = i :=
  index_unique_of_countP _ once other row (by simpa using also) (by simpa using claiming)

theorem rowIndex_claiming {s : State} (once : s.oneClaim) {i : Nat} {g : GuardRow} (row : s.zones.rows[i]? = some g)
    (claiming : g.guard = .claiming) : rowIndex (fun r => decide (r.guard = .claiming)) s.zones.rows = some i := by
  cases found : rowIndex (fun r => decide (r.guard = .claiming)) s.zones.rows with
  | none => exact absurd claiming (by simpa using List.findIdx?_eq_none_iff.mp found g (List.mem_of_getElem? row))
  | some j =>
    obtain ⟨r, other, also⟩ := rowIndex_some found
    rw [State.claiming_unique once row other claiming (by simpa using also)]

/-! ## The claim window -/

/-- The row of the window before the selection that follows its end (R91). -/
theorem State.windowExpired_row {s : State} (once : s.oneClaim) {i : Nat} {g : GuardRow} (row : s.zones.rows[i]? = some g)
    (claiming : g.guard = .claiming) : ∃ u : State, u.peers = s.peers ∧ s.windowExpired.zones.rows = u.select.zones.rows ∧
      u.zones.rows[i]? = some (if s.allClear g then g.toHeld else g.toWaiting) := by
  refine ⟨s.modRow i (fun r => if s.allClear r then r.toHeld else r.toWaiting), rfl, ?_, by simp [State.modRow, row]⟩
  unfold State.windowExpired
  rw [rowIndex_claiming once row claiming]
  exact State.judged_rows _ s

/-- R91: the window of a clear claim ends in HELD. -/
theorem State.windowExpired_holds {s : State} (once : s.oneClaim) {i : Nat} {g : GuardRow} (row : s.zones.rows[i]? = some g)
    (claiming : g.guard = .claiming) (clear : s.allClear g = true) : s.windowExpired.zones.rows[i]? = some g.toHeld := by
  obtain ⟨u, -, rows, ended⟩ := State.windowExpired_row once row claiming
  rw [rows]
  exact u.select_steady.held i _ (by simpa [clear] using ended) rfl

/-- R91: the window of a claim that a peer left FRESH ends in WAITING. -/
theorem State.windowExpired_waits {s : State} (once : s.oneClaim) {i : Nat} {g : GuardRow} (row : s.zones.rows[i]? = some g)
    (claiming : g.guard = .claiming) {n : Nat} (mem : n ∈ g.zone.peers)
    (left : ∀ o, findPeer s.peers n = some o → o.freshness ≠ .fresh) :
    s.windowExpired.zones.rows[i]? = some g.toWaiting := by
  obtain ⟨u, peers, rows, ended⟩ := State.windowExpired_row once row claiming
  rw [State.allClear_false mem (State.peerClear_false left g)] at ended
  rw [rows]
  exact State.select_waits ended (State.allClear_false (g := g.toWaiting) mem (State.peerClear_false (peers ▸ left) _))

/-- R80 to R82: a FRESH peer in OPERATIONAL that shows NONE, or a claim of lower rank, is clear. -/
theorem State.peerClear_of_yields {s : State} {g : GuardRow} {n : Nat} {o : PeerRecord} {st : PeerStatus} {e : PeerZone}
    (found : findPeer s.peers n = some o) (fresh : o.freshness = .fresh) (status : o.status = some st) (mode : st.mode = 2)
    (entry : st.zones.find? (fun e => decide (e.zone = g.zone.number)) = some e)
    (yields : e.adv = .none ∨ e.adv = .claim ∧ (g.waited = true ∧ e.waited = false ∨
      g.waited = e.waited ∧ s.station < n)) : s.peerClear g n = true := by
  rcases yields with none_ | ⟨claim, rank⟩
  · simp [State.peerClear, found, fresh, status, mode, PeerStatus.says, entry, PeerSays.clearFor, none_]
  · simp only [State.peerClear, found, fresh, status, mode, PeerStatus.says, entry, PeerSays.clearFor, claim, ranksAbove]
    rcases rank with ⟨own, other⟩ | ⟨alike, lower⟩
    · simp [own, other]
    · simp [alike, lower]

/-! ## The zone wait limit -/

/-- R100: the row that a time-out names, while a row is CLAIMING. -/
theorem State.timeoutRow_claiming {s : State} (once : s.oneClaim) {i : Nat} {g : GuardRow} (row : s.zones.rows[i]? = some g)
    (claiming : g.guard = .claiming) : s.timeoutRow = some g := by
  unfold State.timeoutRow
  cases found : s.zones.rows.find? (fun r => decide (r.guard = .claiming)) with
  | none => exact absurd claiming (by simpa using List.find?_eq_none.mp found g (List.mem_of_getElem? row))
  | some r =>
    obtain ⟨j, other⟩ := List.mem_iff_getElem?.mp (List.mem_of_find?_eq_some found)
    have also : r.guard = .claiming := by simpa using List.find?_some found
    obtain rfl := State.claiming_unique once row other claiming also
    exact other.symm.trans row

theorem State.zoneWaitExpired_eq {s : State} {g : GuardRow} (h : s.timeoutRow = some g) :
    s.zoneWaitExpired = ({ s with zones := { s.zones with waitElapsed := 0 } } : State).report .zoneTimeout
      { axis := none, zone := some g.zone.number, peer := g.zone.peers.find? (fun p => !s.peerClear g p) } := by
  unfold State.zoneWaitExpired
  rw [h]

/-- A report leaves an elapsed time of 0, and every row, as they are. -/
theorem State.report_zones (s : State) {k : FaultKind} (f : FaultFields) (hk : k ≠ .duplicateStation)
    (h : s.zones.waitElapsed = 0) : (s.report k f).zones = s.zones := by
  have rows := (s.report_reacts k f hk).frame.rows
  have elapsed : (s.report k f).zones.waitElapsed = s.zones.waitElapsed := by
    rw [(s.report_motionOnly f hk).zones, (s.reacted_beside k f).waitElapsed, h]
    exact ite_self 0
  cases e : (s.report k f).zones
  rw [e] at rows elapsed
  cases z : s.zones
  simp_all

/-- Settles O35: the window's row keeps the state it ends in through the selection, and the time-out is a report from the state
with the elapsed time reset. -/
theorem zoneClocks : Obligations.ZoneClocks := by
  unfold Obligations.ZoneClocks
  intro s i g running once row notFresh
  have window : exec .claimWindowExpiry s = .next s.windowExpired := live_of_not_inReset _ running
  have limit : exec .zoneTimeout s = .next s.zoneWaitEnds := live_of_not_inReset _ running
  refine ⟨fun claiming clear => ?_, fun claiming => ?_, fun idle => ?_, fun claiming need awake => ?_, fun quiet => ?_⟩
  · refine ⟨_, _, window.trans (congrArg _ s.windowExpired_zonesOnly),
      State.windowExpired_holds once row claiming (List.all_eq_true.mpr fun pr mem => ?_)⟩
    obtain ⟨o, st, e, found, fresh, status, mode, entry, yields⟩ := clear pr mem
    exact State.peerClear_of_yields found fresh status mode entry yields
  · rintro ⟨pr, mem, left⟩
    exact ⟨_, _, window.trans (congrArg _ s.windowExpired_zonesOnly), State.windowExpired_waits once row claiming mem left⟩
  · have none_ : rowIndex (fun r => decide (r.guard = .claiming)) s.zones.rows = none :=
      List.findIdx?_eq_none_iff.mpr fun o mem => by simpa using idle o mem
    rw [window, State.windowExpired, none_]
  · have runs : s.zoneWaitRuns = true := s.zoneWaitRuns_iff.mpr ⟨awake, g, List.mem_of_getElem? row, need, .inl claiming⟩
    have single : FaultKind.zoneTimeout ≠ .duplicateStation := by decide
    rw [limit, State.zoneWaitEnds, if_pos runs, State.zoneWaitExpired_eq (State.timeoutRow_claiming once row claiming)]
    have reacts := State.report_reacts ({ s with zones := { s.zones with waitElapsed := 0 } } : State) .zoneTimeout
      { axis := none, zone := some g.zone.number, peer := g.zone.peers.find? (fun p => !s.peerClear g p) } single
    refine ⟨_, rfl, State.report_zones _ _ single rfl, State.report_held _ _ _, (reacts.axis .slew).stoppedBy,
      (reacts.axis .rake).stoppedBy, reacts.stopsOnly, fun empty => ⟨_, State.report_record _ _ _ empty, rfl, rfl, rfl, ?_⟩⟩
    intro pr rest peers left
    simp [peers, State.peerClear_false left g]
  · have rests : ¬ s.zoneWaitRuns = true := by
      rw [s.zoneWaitRuns_iff]
      rintro ⟨awake, o, mem, need, -⟩
      exact quiet.elim awake fun none_ => none_ o mem need
    rw [limit, State.zoneWaitEnds, if_neg rests]

end Sys2Proof.Machine
end

-- ==== Proofs: a tick judges and selects the guard rows ====
section
/-! SETTLES O25. The zone guard's event of a tick judges every row by the envelopes that the tick wrote and by the slew as the
tick found it (R83 to R85), and its selection takes the first candidate of least key (R86, R87). -/

namespace Sys2Proof.Machine

/-! ## A turn keeps what the zone guard judges the slew by -/

/-- A turn under the profile ends in a state of the profile. -/
theorem AxisUnit.finishTurn_profiled {par : AxisParams} {a : AxisUnit} (h : a.state.profiled = true) (d : Advance)
    (done : Bool) : (a.finishTurn par d done).state.profiled = true := by
  unfold AxisUnit.finishTurn
  simp only
  split
  · split
    · rfl
    · exact h
  · split
    · rfl
    · split
      · split <;> exact h
      · exact h

theorem AxisUnit.finishTurn_referenced (par : AxisParams) (a : AxisUnit) (d : Advance) (done : Bool) :
    (a.finishTurn par d done).referenced = a.referenced := by
  unfold AxisUnit.finishTurn
  simp only
  split
  · split <;> rfl
  · split
    · rfl
    · split
      · split <;> rfl
      · rfl

/-- A turn changes neither the reference state nor whether there is a motion request (R84). -/
theorem AxisUnit.turn_judgedAlike (par : AxisParams) (a : AxisUnit) (f : Advance → Bool) (z : Advance → Option Nat) :
    (a.turn par f z).1.referenced = a.referenced ∧ (a.turn par f z).1.hasMotion = a.hasMotion := by
  have runs (running : a.state.profiled = true) (d : Advance) (done : Bool) :
      (a.finishTurn par d done).referenced = a.referenced ∧ (a.finishTurn par d done).hasMotion = a.hasMotion :=
    ⟨a.finishTurn_referenced par d done, (AxisUnit.hasMotion_of_profiled (AxisUnit.finishTurn_profiled running d done)).trans
      (AxisUnit.hasMotion_of_profiled running).symm⟩
  unfold AxisUnit.turn
  split
  · next off => exact ⟨rfl, by simp [AxisUnit.hasMotion, AxisUnit.restTurn, AxisUnit.rest]⟩
  · next faulted => exact ⟨rfl, by simp [AxisUnit.hasMotion, AxisUnit.restTurn, AxisUnit.rest]⟩
  · exact ⟨rfl, rfl⟩
  · exact ⟨rfl, rfl⟩
  · next tracking =>
    split
    · exact runs (by rw [tracking]; rfl) _ _
    · exact runs (by rw [tracking]; rfl) _ _
  · next stopping => exact runs (by rw [stopping]; rfl) _ _

theorem State.turned_judgedAlike (s : State) :
    s.turned.slew.referenced = s.slew.referenced ∧ s.turned.slew.hasMotion = s.slew.hasMotion :=
  s.slew.turn_judgedAlike _ _ _

/-! ## Steps 1 to 3 of R85 for one row -/

theorem State.tickRow_need (s : State) (r : GuardRow) : (s.tickRow r).need = s.needOf r.zone := by
  unfold State.tickRow
  simp only
  split <;> (try split) <;> rfl

/-- R93, R95: a row that a tick releases has no need. -/
theorem State.needOf_of_releases {s : State} {z : Zone} (h : s.releases z = true) : s.needOf z = .none := by
  unfold State.releases at h
  unfold State.needOf
  split at h
  · next ref =>
    obtain ⟨away, far⟩ : s.env.slew.touches z = false ∧ s.env.approach.touches z = false := by simpa using h
    simp [ref, away, far]
  · next ref => simp_all

theorem State.tickRow_releases {s : State} {r : GuardRow} (held : r.guard = .held) (h : s.releases r.zone = true) :
    (s.tickRow r).guard = .free ∧ (s.tickRow r).waited = false := by
  simp [State.tickRow, held, h, GuardRow.toFree]

/-- R90: a row that is not HELD and has no need is FREE. -/
theorem State.tickRow_drops {s : State} {r : GuardRow} (held : r.guard ≠ .held) (need : s.needOf r.zone = .none) :
    (s.tickRow r).guard = .free := by
  unfold State.tickRow
  cases guard : r.guard <;> simp_all [GuardRow.toFree]

/-- R83: a row that is not HELD and has a need takes the need alone. -/
theorem State.tickRow_asks {s : State} {r : GuardRow} (held : r.guard ≠ .held) (need : s.needOf r.zone ≠ .none) :
    s.tickRow r = { r with need := s.needOf r.zone } := by
  unfold State.tickRow
  cases guard : r.guard <;> simp_all

/-- A row that was not FREE or WAITING with a need is no candidate after the first steps. -/
theorem State.tickRow_candidate (s : State) (r : GuardRow) :
    (s.tickRow r).candidate = true ↔ s.needOf r.zone ≠ .none ∧ (r.guard = .free ∨ r.guard = .waiting) := by
  by_cases held : r.guard = .held
  · have stays : (s.tickRow r).candidate = false := by
      cases released : s.releases r.zone
      · simp [GuardRow.candidate, State.tickRow_held held released]
      · simp [GuardRow.candidate, s.tickRow_need, State.needOf_of_releases released]
    simp [stays, held]
  · by_cases need : s.needOf r.zone = .none
    · simp [GuardRow.candidate, s.tickRow_need, need]
    · rw [State.tickRow_asks held need]
      simp [GuardRow.candidate, need]

/-- After the first steps a row is CLAIMING when it was, and its need has not gone. -/
theorem State.tickRow_claiming_iff (s : State) (r : GuardRow) :
    (s.tickRow r).guard = .claiming ↔ r.guard = .claiming ∧ s.needOf r.zone ≠ .none := by
  constructor
  · intro claims
    have was := s.tickRow_claiming r claims
    refine ⟨was, fun gone => ?_⟩
    rw [State.tickRow_drops (by simp [was]) gone] at claims
    cases claims
  · rintro ⟨was, need⟩
    rw [State.tickRow_asks (by simp [was]) need]
    exact was

/-! ## The first row of least key (R86) -/

/-- A row at `j` stands before one at `k` in an order by keys. -/
def Precedes (key : GuardRow → Int) (j : Nat) (g : GuardRow) (k : Nat) (h : GuardRow) : Prop :=
  key g < key h ∨ key g = key h ∧ j < k

/-- What `leastIndex` holds of the rows it has passed: the first candidate of least key, or none if there is no candidate. -/
def LeastOf (key : GuardRow → Int) (rows : List GuardRow) : Option (Nat × Int) → Prop
  | none => ∀ r ∈ rows, r.candidate = false
  | some (j, k) => ∃ r, rows[j]? = some r ∧ r.candidate = true ∧ key r = k ∧
      ∀ n q, rows[n]? = some q → q.candidate = true → n ≠ j → Precedes key j r n q

/-- One more row after the rows passed: beside a row that is not a candidate, or is not before the one held, nothing changes. -/
theorem LeastOf.pass {key : GuardRow → Int} {rows : List GuardRow} {best : Option (Nat × Int)} (h : LeastOf key rows best)
    (r : GuardRow) (after : r.candidate = true → ∃ j k, best = some (j, k) ∧ k ≤ key r) :
    LeastOf key (rows ++ [r]) best := by
  match best with
  | none =>
    have idle : r.candidate = false := Bool.eq_false_iff.mpr fun c => by
      obtain ⟨_, _, found, -⟩ := after c
      cases found
    intro q mem
    rcases List.mem_append.mp mem with old | new
    · exact h q old
    · rwa [List.mem_singleton.mp new]
  | some (j, k) =>
    obtain ⟨g, row, candidate, rfl, least⟩ := h
    have inside := (List.getElem?_eq_some_iff.mp row).1
    refine ⟨g, (List.getElem?_append_left inside).trans row, candidate, rfl, fun n q at_n c ne => ?_⟩
    rcases Nat.lt_or_ge n rows.length with old | new
    · exact least n q (by rwa [List.getElem?_append_left old] at at_n) c ne
    · rw [List.getElem?_append_right new] at at_n
      obtain rfl : r = q := List.mem_singleton.mp (List.mem_of_getElem? at_n) |>.symm
      obtain ⟨_, _, found, le⟩ := after c
      cases found
      exact (lt_or_eq_of_le le).imp id fun e => ⟨e, by omega⟩

/-- One more row that is before all the candidates passed becomes the one held. -/
theorem LeastOf.take {key : GuardRow → Int} {rows : List GuardRow} {best : Option (Nat × Int)} (h : LeastOf key rows best)
    {r : GuardRow} (candidate : r.candidate = true) (below : ∀ j k, best = some (j, k) → key r < k) :
    LeastOf key (rows ++ [r]) (some (rows.length, key r)) := by
  refine ⟨r, List.getElem?_concat_length, candidate, rfl, fun n q at_n c ne => .inl ?_⟩
  have inside : n < rows.length := by
    have := (List.getElem?_eq_some_iff.mp at_n).1
    simp at this
    omega
  rw [List.getElem?_append_left inside] at at_n
  match best with
  | none => simp [h q (List.mem_of_getElem? at_n)] at c
  | some (j, k) =>
    obtain ⟨g, row, -, rfl, least⟩ := h
    have first : key r < key g := below j _ rfl
    by_cases same : n = j
    · subst same
      cases row.symm.trans at_n
      exact first
    · rcases least n q at_n c same with lt | ⟨eq, -⟩
      · exact first.trans lt
      · exact eq ▸ first

theorem leastIndex_leastOf (key : GuardRow → Int) (rows : List GuardRow) {passed : List GuardRow}
    {best : Option (Nat × Int)} (h : LeastOf key passed best) :
    LeastOf key (passed ++ rows) (leastIndex key rows passed.length best) := by
  induction rows generalizing passed best with
  | nil => simpa [leastIndex] using h
  | cons r rs ih =>
    have next {b : Option (Nat × Int)} (k : LeastOf key (passed ++ [r]) b) :
        LeastOf key (passed ++ r :: rs) (leastIndex key rs (passed.length + 1) b) := by
      simpa using ih k
    unfold leastIndex
    refine next ?_
    split
    · next candidate =>
      split
      · exact h.take candidate nofun
      · next j k =>
        split
        · next lt => exact h.take candidate fun _ _ e => by cases e; exact lt
        · next ge => exact h.pass r fun _ => ⟨j, k, rfl, not_lt.mp ge⟩
    · next idle => exact h.pass r fun c => absurd c idle

/-! ## The row that a selection chooses -/

/-- R86: with no row CLAIMING the choice is the first candidate of least key. -/
theorem State.chosen_leastOf {s : State} (free : ∀ r ∈ s.zones.rows, r.guard ≠ .claiming) :
    ∃ best, s.chosen = best.map (·.1) ∧ LeastOf s.selectionKey s.zones.rows best := by
  have none_ : ¬ s.zones.rows.any (fun r => decide (r.guard = .claiming)) = true := by simpa using free
  refine ⟨_, ?_, leastIndex_leastOf s.selectionKey s.zones.rows (passed := []) (best := none) nofun⟩
  unfold State.chosen
  rw [if_neg none_]
  rfl

theorem State.free_of_chosen {s : State} {i : Nat} (h : s.chosen = some i) : ∀ r ∈ s.zones.rows, r.guard ≠ .claiming := by
  unfold State.chosen at h
  split at h
  · cases h
  · next none_ => simpa using none_

/-- R86: the row chosen is a candidate, and before every other one. -/
theorem State.chosen_first {s : State} {i : Nat} (h : s.chosen = some i) {r : GuardRow} (row : s.zones.rows[i]? = some r) :
    r.candidate = true ∧ ∀ n q, s.zones.rows[n]? = some q → q.candidate = true → n ≠ i → Precedes s.selectionKey i r n q := by
  obtain ⟨best, chosen, least⟩ := State.chosen_leastOf (State.free_of_chosen h)
  obtain ⟨⟨j, k⟩, rfl, rfl⟩ := Option.map_eq_some_iff.mp (chosen.symm.trans h)
  obtain ⟨g, at_j, candidate, -, first⟩ := least
  cases row.symm.trans at_j
  exact ⟨candidate, first⟩

theorem Precedes.asymm {key : GuardRow → Int} {i j : Nat} {g h : GuardRow} (p : Precedes key i g j h) :
    ¬ Precedes key j h i g := by
  unfold Precedes at *
  omega

/-- R86: with no row CLAIMING the candidate before every other one is chosen. -/
theorem State.chosen_of_first {s : State} (free : ∀ r ∈ s.zones.rows, r.guard ≠ .claiming) {i : Nat} {r : GuardRow}
    (row : s.zones.rows[i]? = some r) (candidate : r.candidate = true)
    (first : ∀ n q, s.zones.rows[n]? = some q → q.candidate = true → n ≠ i → Precedes s.selectionKey i r n q) :
    s.chosen = some i := by
  obtain ⟨best, chosen, least⟩ := State.chosen_leastOf free
  match best with
  | none => simp [least r (List.mem_of_getElem? row)] at candidate
  | some (j, k) =>
    obtain ⟨g, at_j, other, -, before⟩ := least
    by_cases same : j = i
    · rw [chosen, same]; rfl
    · exact absurd (before i r row candidate (Ne.symm same)) (first j g at_j other same).asymm

/-- A selection leaves every row but the one chosen. -/
theorem State.select_not_chosen {s : State} {i : Nat} (h : s.comm.mode = .operational → s.chosen ≠ some i) :
    s.select.zones.rows[i]? = s.zones.rows[i]? := by
  unfold State.select
  split
  · next operational =>
    split
    · next j chosen =>
      exact List.getElem?_modify_ne s.claimOrWait _ fun same => h operational (chosen.trans (congrArg some same))
    · rfl
  · rfl

/-- A selection leaves a row that is no candidate. -/
theorem State.select_idle {s : State} {i : Nat} {r : GuardRow} (row : s.zones.rows[i]? = some r)
    (idle : r.candidate = false) : s.select.zones.rows[i]? = some r := by
  refine (State.select_not_chosen fun _ chosen => ?_).trans row
  rw [(State.chosen_first chosen row).1] at idle
  cases idle

theorem State.select_chosen {s : State} {i : Nat} {r : GuardRow} (row : s.zones.rows[i]? = some r)
    (operational : s.comm.mode = .operational) (chosen : s.chosen = some i) :
    s.select.zones.rows[i]? = some (s.claimOrWait r) := by
  unfold State.select
  rw [if_pos operational, chosen]
  simp [State.modRow, row]

theorem State.claimOrWait_need (s : State) (r : GuardRow) : (s.claimOrWait r).need = r.need := by
  unfold State.claimOrWait
  split <;> rfl

/-! ## The rows after a tick -/

/-- The state in which a tick makes its selection: the turns made, and steps 1 to 3 of R85. -/
def State.judged (s : State) : State :=
  { s.turned with zones := { s.turned.zones with rows := s.zones.rows.map s.turned.tickRow } }

theorem State.profileTick_rows (s : State) : s.profileTick.zones.rows = s.judged.select.zones.rows :=
  (s.profileTick_aftermath.rows.trans s.tickReported_aftermath.rows).trans (State.judged_rows s.judged.select s)

theorem State.judged_row {s : State} {i : Nat} {g : GuardRow} (row : s.zones.rows[i]? = some g) :
    s.judged.zones.rows[i]? = some (s.turned.tickRow g) := by
  simp [State.judged, row]

/-- A row of the selection is a row of the table as steps 1 to 3 leave it. -/
theorem State.judged_row_inv {s : State} {i : Nat} {q : GuardRow} (row : s.judged.zones.rows[i]? = some q) :
    ∃ h, s.zones.rows[i]? = some h ∧ q = s.turned.tickRow h := by
  obtain ⟨h, found, rfl⟩ := Option.map_eq_some_iff.mp ((List.getElem?_map ..).symm.trans row)
  exact ⟨h, found, rfl⟩

/-- The order of candidates does not look at what steps 1 to 3 change. -/
theorem State.judged_precedes (s : State) (j k : Nat) (g h : GuardRow) :
    Precedes s.judged.selectionKey j (s.turned.tickRow g) k (s.turned.tickRow h) ↔ Precedes s.turned.selectionKey j g k h := by
  have key (r : GuardRow) : s.judged.selectionKey (s.turned.tickRow r) = s.turned.selectionKey r := by
    show s.turned.selectionKey (s.turned.tickRow r) = _
    unfold State.selectionKey
    rw [State.tickRow_zone]
  unfold Precedes
  rw [key, key]

/-- A row after a tick has its zone, and the need that the tick judged. -/
theorem State.profileTick_row {s : State} {i : Nat} {g : GuardRow} (row : s.zones.rows[i]? = some g) :
    ∃ g', s.profileTick.zones.rows[i]? = some g' ∧ g'.zone = g.zone ∧ g'.need = s.turned.needOf g.zone := by
  rw [s.profileTick_rows]
  rcases State.select_row (State.judged_row row) with same | claims
  · exact ⟨_, same, s.turned.tickRow_zone g, s.turned.tickRow_need g⟩
  · exact ⟨_, claims, (State.claimOrWait_zone _ _).trans (s.turned.tickRow_zone g),
      (State.claimOrWait_need _ _).trans (s.turned.tickRow_need g)⟩

/-- A row that is no candidate is after the tick as steps 1 to 3 leave it. -/
theorem State.profileTick_idle {s : State} {i : Nat} {g : GuardRow} (row : s.zones.rows[i]? = some g)
    (idle : ¬ (s.turned.needOf g.zone ≠ .none ∧ (g.guard = .free ∨ g.guard = .waiting))) :
    s.profileTick.zones.rows[i]? = some (s.turned.tickRow g) := by
  rw [s.profileTick_rows]
  exact State.select_idle (State.judged_row row) (Bool.eq_false_iff.mpr fun c => idle ((s.turned.tickRow_candidate g).mp c))

/-- R86: a candidate that the tick does not choose takes its need alone. -/
theorem State.profileTick_passedOver {s : State} {i : Nat} {g : GuardRow} (row : s.zones.rows[i]? = some g)
    (need : s.turned.needOf g.zone ≠ .none) (open_ : g.guard = .free ∨ g.guard = .waiting)
    (h : s.comm.mode ≠ .operational ∨ (∃ q ∈ s.zones.rows, q.guard = .claiming ∧ s.turned.needOf q.zone ≠ .none) ∨
      ∃ j q, s.zones.rows[j]? = some q ∧ (s.turned.needOf q.zone ≠ .none ∧ (q.guard = .free ∨ q.guard = .waiting)) ∧
        Precedes s.turned.selectionKey j q i g) :
    s.profileTick.zones.rows[i]? = some { g with need := s.turned.needOf g.zone } := by
  have held : g.guard ≠ .held := by rcases open_ with e | e <;> simp [e]
  rw [s.profileTick_rows, ← State.tickRow_asks held need, ← State.judged_row row]
  refine State.select_not_chosen fun operational chosen => ?_
  rcases h with off | ⟨q, mem, claiming, asks⟩ | ⟨j, q, at_j, wants, first⟩
  · exact off operational
  · exact State.free_of_chosen chosen (s.turned.tickRow q) (List.mem_map_of_mem mem)
      ((s.turned.tickRow_claiming_iff q).mpr ⟨claiming, asks⟩)
  · have after := (State.chosen_first chosen (State.judged_row row)).2 j _ (State.judged_row at_j)
      ((s.turned.tickRow_candidate q).mpr wants)
    by_cases same : j = i
    · subst same
      cases row.symm.trans at_j
      exact first.asymm first
    · exact first.asymm ((s.judged_precedes i j g q).mp (after same))

/-- R86, R87: the first candidate claims or waits. -/
theorem State.profileTick_first {s : State} {i : Nat} {g : GuardRow} (row : s.zones.rows[i]? = some g)
    (need : s.turned.needOf g.zone ≠ .none) (open_ : g.guard = .free ∨ g.guard = .waiting)
    (operational : s.comm.mode = .operational)
    (free : ∀ q ∈ s.zones.rows, q.guard = .claiming → s.turned.needOf q.zone = .none)
    (first : ∀ j q, s.zones.rows[j]? = some q →
      (s.turned.needOf q.zone ≠ .none ∧ (q.guard = .free ∨ q.guard = .waiting)) → j ≠ i →
      Precedes s.turned.selectionKey i g j q) :
    s.profileTick.zones.rows[i]? = some (s.judged.claimOrWait { g with need := s.turned.needOf g.zone }) := by
  have held : g.guard ≠ .held := by rcases open_ with e | e <;> simp [e]
  rw [s.profileTick_rows, ← State.tickRow_asks held need]
  refine State.select_chosen (State.judged_row row) operational (State.chosen_of_first (fun r mem claims => ?_)
    (State.judged_row row) ((s.turned.tickRow_candidate g).mpr ⟨need, open_⟩) fun n q at_n candidate ne => ?_)
  · obtain ⟨q, old, rfl⟩ := List.mem_map.mp mem
    obtain ⟨was, asks⟩ := (s.turned.tickRow_claiming_iff q).mp claims
    exact asks (free q old was)
  · obtain ⟨q, at_q, rfl⟩ := State.judged_row_inv at_n
    exact (s.judged_precedes i n g q).mpr (first n q at_q ((s.turned.tickRow_candidate q).mp candidate) ne)

/-- R82: a candidate whose peers are FRESH and show NONE claims for the window, with its waited flag kept. -/
theorem State.claimOrWait_clear {s : State} {r : GuardRow} (clear : s.allClear r = true) : s.claimOrWait r = r.toClaiming :=
  if_pos clear

theorem State.claimOrWait_blocked {s : State} {r : GuardRow} (blocked : s.allClear r = false) :
    s.claimOrWait r = r.toWaiting := by
  unfold State.claimOrWait
  rw [blocked]
  rfl

/-- Settles O25: the needs by the envelopes written and the slew as the tick found it; a row that is no candidate, or is passed
over, as the first steps leave it; and the first candidate by the choice of the least key. -/
theorem tickJudgesRows : Obligations.TickJudgesRows := by
  unfold Obligations.TickJudgesRows
  intro s r i g running record row moves need keeps wants before notFresh
  obtain ⟨referenced, motion⟩ := s.turned_judgedAlike
  have moves_eq : s.turned.slew.hasMotion = moves := motion.trans rfl
  have need_eq (h : GuardRow) : need s.profileTick h = s.turned.needOf h.zone := by
    simp only [need, State.needOf, s.profileTick_env, referenced, moves_eq]
  have keeps_iff (h : GuardRow) : keeps s.profileTick h ↔ s.turned.releases h.zone = false := by
    simp only [keeps, State.releases, s.profileTick_env, referenced, moves_eq]
    cases s.slew.referenced <;> simp [or_iff_not_imp_left]
  have before_iff (j k : Nat) (h h' : GuardRow) :
      before s.profileTick j h k h' ↔ Precedes s.turned.selectionKey j h k h' := by
    simp only [before, Precedes, State.selectionKey, s.profileTick_env, referenced]
    rcases s.turned.env.travel with _ | ⟨_ | _, target⟩ <;> cases s.slew.referenced <;> simp
  obtain ⟨g', row', zone, needs⟩ := State.profileTick_row row
  have is {h : GuardRow} (at_i : s.profileTick.zones.rows[i]? = some h) : g' = h := Option.some.inj (row'.symm.trans at_i)
  refine ⟨s.profileTick, g', exec_profileTick running, row', zone, needs.trans (need_eq g).symm, fun held kept => ?_,
    fun held gone => ?_, fun held none_ => ?_, fun claiming asks => ?_, fun asks operational free first => ?_,
    fun asks passed => ?_⟩
  · rw [is (State.profileTick_idle row (by simp [held]))]
    exact State.tickRow_held held ((keeps_iff g).mp kept)
  · rw [is (State.profileTick_idle row (by simp [held]))]
    exact State.tickRow_releases held (Bool.not_eq_false _ ▸ (keeps_iff g).not.mp gone)
  · rw [need_eq] at none_
    rw [is (State.profileTick_idle row (by simp [none_]))]
    exact State.tickRow_drops held none_
  · rw [need_eq] at asks
    rw [is (State.profileTick_idle row (by simp [claiming])), State.tickRow_asks (by simp [claiming]) asks]
    exact ⟨claiming, rfl⟩
  · simp only [wants, need_eq, before_iff] at asks free first
    have chosen := is (State.profileTick_first row asks.1 asks.2 operational free first)
    refine ⟨fun clear => ?_, fun ⟨pr, mem, left⟩ => ?_⟩
    · rw [chosen, State.claimOrWait_clear (List.all_eq_true.mpr fun pr mem => ?_)]
      · exact ⟨rfl, rfl, rfl⟩
      · obtain ⟨o, st, e, found, fresh, status, mode, entry, shows⟩ := clear pr mem
        exact State.peerClear_of_yields found fresh status mode entry (.inl shows)
    · have blocked : s.judged.allClear { g with need := s.turned.needOf g.zone } = false :=
        State.allClear_false (n := pr) mem (State.peerClear_false (s := s.judged) left _)
      rw [chosen, State.claimOrWait_blocked blocked]
      exact ⟨rfl, rfl, rfl⟩
  · simp only [wants, need_eq, before_iff] at asks passed
    rw [is (State.profileTick_passedOver row asks.1 asks.2 passed)]
    exact ⟨rfl, rfl, rfl⟩

end Sys2Proof.Machine
end

-- ==== Proofs: what a status arrival leaves of the peer records ====
section
/-! SUPPORT. A status arrival drops peer records only as R107 drops the script peers, and keeps the envelopes, the carried
values, the mode and the store, through the zone guard (R88, R97) and the phases of the sequencer (R126 to R131). -/

namespace Sys2Proof.Machine

/-! ## The script peers dropped -/

theorem dropScript_idem (ps : List PeerRecord) : dropScript (dropScript ps) = dropScript ps := by
  induction ps with
  | nil => rfl
  | cons p ps ih =>
    unfold dropScript at ih ⊢
    cases role : p.zoneRole <;> simpa [role] using ih

theorem dropScript_scriptRole {ps : List PeerRecord} {o : PeerRecord} (h : o ∈ dropScript ps) : o.scriptRole = false := by
  obtain ⟨q, -, rfl⟩ := List.mem_map.mp h
  rfl

/-- R107: a record with the role ZONE stays, with everything but the role SCRIPT. -/
theorem findPeer_dropScript {ps : List PeerRecord} {n : Nat} {r : PeerRecord} (found : findPeer ps n = some r)
    (zone : r.zoneRole = true) : findPeer (dropScript ps) n = some { r with scriptRole := false } := by
  induction ps with
  | nil => cases found
  | cons p ps ih =>
    by_cases own : p.station = n
    · cases (List.find?_cons_of_pos (by simpa using own) : findPeer (p :: ps) n = some p).symm.trans found
      simp [findPeer, dropScript, zone, own]
    · have rest : findPeer (p :: ps) n = findPeer ps n := List.find?_cons_of_neg (by simpa using own)
      have later := ih (rest.symm.trans found)
      unfold findPeer dropScript at later ⊢
      cases role : p.zoneRole
      · simpa [role] using later
      · simpa [role, own] using later

/-! ## The relation -/

/-- Going from `s` to `t` keeps the envelopes, the carried values, the mode and the store, and drops at most the script
peers. -/
structure KeepsView (s t : State) : Prop where
  env : t.env = s.env
  nv : t.nv = s.nv
  comm : t.comm = s.comm
  store : t.store = s.store
  peers : t.peers = s.peers ∨ t.peers = dropScript s.peers

theorem KeepsView.refl (s : State) : KeepsView s s := ⟨rfl, rfl, rfl, rfl, .inl rfl⟩

theorem KeepsView.trans {s t u : State} (h : KeepsView s t) (k : KeepsView t u) : KeepsView s u := by
  refine ⟨k.env.trans h.env, k.nv.trans h.nv, k.comm.trans h.comm, k.store.trans h.store, ?_⟩
  rcases h.peers with e | e <;> rcases k.peers with f | f <;> rw [f, e]
  · exact .inl rfl
  · exact .inr rfl
  · exact .inr rfl
  · exact .inr (dropScript_idem _)

theorem KeepsView.ofFrame {s t : State} (h : Frame s t) (peers : t.peers = s.peers ∨ t.peers = dropScript s.peers) :
    KeepsView s t := ⟨h.env, h.nv, h.comm, h.store, peers⟩

theorem MotionOnly.keepsView {s t : State} (h : MotionOnly s t) : KeepsView s t := by
  refine ⟨?_, ?_, h.comm, ?_, .inl h.peers⟩ <;> rw [h]

theorem ZonesOnly.keepsView {s t : State} (h : ZonesOnly s t) : KeepsView s t := by
  refine ⟨?_, ?_, ?_, ?_, .inl ?_⟩ <;> rw [h]

theorem KeepsView.ofSeq (s : State) (q : Sequencer) : KeepsView s { s with seq := q } :=
  ⟨rfl, rfl, rfl, rfl, .inl rfl⟩

theorem KeepsView.ofSetAxis (s : State) (x : Axis) (a : AxisUnit) : KeepsView s (s.setAxis x a) :=
  (MotionOnly.ofSetAxis s x a).keepsView

/-- R105, R107: the record of a station with the role ZONE stays with all that it shows. -/
theorem KeepsView.findPeer {s t : State} (h : KeepsView s t) {n : Nat} {r : PeerRecord} (found : findPeer s.peers n = some r)
    (zone : r.zoneRole = true) : ∃ b, Machine.findPeer t.peers n = some { r with scriptRole := b } := by
  rcases h.peers with e | e <;> rw [e]
  · exact ⟨r.scriptRole, found⟩
  · exact ⟨false, findPeer_dropScript found zone⟩

/-! ## Reports and requests -/

/-- R107: the script peers that a report drops. -/
theorem State.report_peers (s : State) (k : FaultKind) (f : FaultFields) :
    (s.report k f).peers = if s.seq.state.atEase then s.peers else dropScript s.peers :=
  (s.report_ordered k f).1.trans (s.reacted_beside k f).peers

theorem State.report_keepsView (s : State) {k : FaultKind} (f : FaultFields) (hk : k ≠ .duplicateStation) :
    KeepsView s (s.report k f) := by
  refine .ofFrame (s.report_reacts k f hk).frame ?_
  rw [State.report_peers]
  split
  · exact .inl rfl
  · exact .inr rfl

theorem State.requestStatus_keepsView (s : State) : KeepsView s s.requestStatus := ⟨rfl, rfl, rfl, rfl, .inl rfl⟩

theorem State.noticed_keepsView (s : State) (x : Axis) (g : Goal) : KeepsView s (s.noticed x g) := by
  rw [State.noticed_eq]
  exact ⟨rfl, rfl, rfl, rfl, .inl rfl⟩

theorem State.refuseRequest_keepsView (s : State) (x : Axis) (q : Requester) : KeepsView s (s.refuseRequest x q) := by
  cases q with
  | sequencer => exact s.report_keepsView _ (by decide)
  | enableMonitor => exact (s.tellStopped_motionOnly x (some .enableMonitor)).keepsView
  | positionUnit => exact (s.tellStopped_motionOnly x (some .positionUnit)).keepsView

theorem State.releaseExpired_keepsView (s : State) (x : Axis) : KeepsView s (s.releaseExpired x) := by
  unfold State.releaseExpired
  simp only
  split
  · exact .ofSetAxis s x _
  · split
    · exact (KeepsView.ofSetAxis s x _).trans (State.refuseRequest_keepsView _ x _)
    · exact .ofSetAxis s x _

theorem State.readyTaken_keepsView (s : State) (x : Axis) : KeepsView s (s.readyTaken x) := by
  unfold State.readyTaken
  simp only
  split
  · exact (KeepsView.ofSetAxis s x _).trans (State.releaseExpired_keepsView _ x)
  · exact .ofSetAxis s x _

theorem State.startUp_keepsView (s : State) (x : Axis) (r : Request) : KeepsView s (s.startUp x r) := by
  unfold State.startUp
  simp only
  split
  · exact (KeepsView.ofSetAxis s x _).trans (State.readyTaken_keepsView _ x)
  · exact .ofSetAxis s x _

theorem State.placeRequest_keepsView (s : State) (x : Axis) (r : Request) : KeepsView s (s.placeRequest x r) := by
  unfold State.placeRequest
  simp only
  split
  · split
    · exact .refl s
    · exact s.startUp_keepsView x r
  · exact .ofSetAxis s x _
  · exact .ofSetAxis s x _
  · exact .ofSetAxis s x _
  · exact .ofSetAxis s x _
  · exact (s.tellStopped_motionOnly x (some r.asker)).keepsView

theorem State.request_keepsView (s : State) (x : Axis) (r : Request) : KeepsView s (s.request x r) := by
  have noticed := s.noticed_keepsView x r.goal
  rw [State.request_eq]
  split
  · exact noticed.trans (State.refuseRequest_keepsView _ x _)
  · exact noticed.trans (State.placeRequest_keepsView _ x _)

/-! ## The sequencer -/

theorem State.giveTarget_keepsView (s : State) (x : Axis) : KeepsView s (s.giveTarget x) := by
  unfold State.giveTarget
  split
  · split
    · exact (KeepsView.ofSeq s _).trans (State.request_keepsView _ x _)
    · exact .refl s
  · exact .refl s

theorem State.startMoving_keepsView (s : State) : KeepsView s s.startMoving := by
  have begun : KeepsView s (({ s with seq := { s.seq with phase := .moving } } : State).requestStatus) :=
    (KeepsView.ofSeq s _).trans (State.requestStatus_keepsView _)
  unfold State.startMoving
  simp only
  split
  · exact begun
  · exact begun.trans (State.giveTarget_keepsView _ .slew)
  · exact begun.trans (State.giveTarget_keepsView _ .rake)
  · split
    · exact begun.trans ((State.giveTarget_keepsView _ .rake).trans (State.giveTarget_keepsView _ .slew))
    · exact begun.trans ((KeepsView.ofSeq _ _).trans (State.giveTarget_keepsView _ .rake))
    · exact begun.trans ((KeepsView.ofSeq _ _).trans (State.giveTarget_keepsView _ .slew))

theorem State.finishStep_keepsView (s : State) : KeepsView s s.finishStep := by
  unfold State.finishStep
  split
  · exact ⟨rfl, rfl, rfl, rfl, .inl rfl⟩
  · exact ⟨rfl, rfl, rfl, rfl, .inr rfl⟩

theorem State.advance_keepsView (n : Nat) (s : State) : KeepsView s (State.advance n s) := by
  induction n generalizing s with
  | zero => exact .refl s
  | succ n ih =>
    unfold State.advance
    split
    · split
      · split
        · exact s.startMoving_keepsView.trans (ih _)
        · exact .refl s
      · split
        · exact ((KeepsView.ofSeq s _).trans (State.requestStatus_keepsView _)).trans (ih _)
        · exact .refl s
      · split
        · exact s.finishStep_keepsView.trans (ih _)
        · exact .refl s
      · exact .refl s
      · exact .refl s
    · exact .refl s

/-- What a stop of one axis keeps, the stops of the REQUESTED axes keep. -/
theorem State.stopRequested_chain {R : State → State → Prop} (refl : ∀ s, R s s) (trans : ∀ {s t u}, R s t → R t u → R s u)
    (stop : ∀ s x, R s (s.stopAxis x .controlled)) (s : State) : R s s.stopRequested := by
  have rake : R s (if s.seq.rakeMove = .requested then s.stopAxis .rake .controlled else s) := by
    split
    · exact stop s .rake
    · exact refl s
  unfold State.stopRequested
  simp only
  split
  · exact trans rake (stop _ .slew)
  · exact rake

theorem State.stopRequested_motionOnly (s : State) : MotionOnly s s.stopRequested :=
  State.stopRequested_chain MotionOnly.refl MotionOnly.trans (fun s x => s.stopAxis_motionOnly x _) s

/-- An abort leaves the peers without their script roles. -/
theorem State.seqToAborted_peers (s : State) : s.seqToAborted.peers = dropScript s.peers := by
  rw [State.seqToAborted, State.judgeZoneWait_eq]
  rfl

theorem State.peerAborts_peers (s : State) : s.peerAborts.peers = dropScript s.peers := by
  rw [State.peerAborts, State.seqToAborted_peers, (State.stopRequested_motionOnly _).peers]
  rfl

theorem State.peerAborts_keepsView (s : State) : KeepsView s s.peerAborts := by
  have noticed : KeepsView s (s.raiseNotice .peerAborted) := ⟨rfl, rfl, rfl, rfl, .inl rfl⟩
  have stopped := (s.raiseNotice .peerAborted).stopRequested_motionOnly.keepsView
  have ended : KeepsView (s.raiseNotice .peerAborted).stopRequested s.peerAborts := by
    refine ⟨?_, ?_, ?_, ?_, .inr (State.seqToAborted_peers _)⟩ <;>
      rw [State.peerAborts, State.seqToAborted, State.judgeZoneWait_eq] <;> rfl
  exact noticed.trans (stopped.trans ended)

theorem State.seqArrival_keepsView (s : State) (n : Nat) : KeepsView s (s.seqArrival n) := by
  unfold State.seqArrival
  split
  · split
    · split
      · exact s.peerAborts_keepsView
      · exact (KeepsView.ofSeq s _).trans (State.advance_keepsView _ _)
    · exact .refl s
  · exact .refl s

/-! ## The zone guard -/

/-- R97: the reports of an arrival are none, or stop and end as one report does. -/
theorem State.reportConflicts_cases (n : Nat) (rows : List GuardRow) (s : State) :
    s.reportConflicts n rows = s ∨ Reacts .quick s (s.reportConflicts n rows) ∧
      (s.reportConflicts n rows).peers = if s.seq.state.atEase then s.peers else dropScript s.peers := by
  induction rows generalizing s with
  | nil => exact .inl rfl
  | cons r rs ih =>
    unfold State.reportConflicts
    split
    · right
      have reacts := s.report_reacts .zoneConflict { axis := none, zone := some r.zone.number, peer := some n } (by decide)
      have dropped := s.report_peers .zoneConflict { axis := none, zone := some r.zone.number, peer := some n }
      rcases ih (s.report .zoneConflict { axis := none, zone := some r.zone.number, peer := some n }) with same | ⟨more, peers⟩
      · rw [same]; exact ⟨reacts, dropped⟩
      · refine ⟨reacts.trans more, ?_⟩
        rw [peers, if_pos reacts.seq.atEase, dropped]
    · exact ih s

theorem State.reportConflicts_keepsView (n : Nat) (rows : List GuardRow) (s : State) :
    KeepsView s (s.reportConflicts n rows) := by
  rcases s.reportConflicts_cases n rows with same | ⟨reacts, peers⟩
  · rw [same]; exact .refl s
  · refine .ofFrame reacts.frame ?_
    rw [peers]
    split
    · exact .inl rfl
    · exact .inr rfl

/-- What a status arrival does to the zone guard after the reports (R88, R86, R99). -/
theorem State.zoneArrival_zonesOnly (s : State) (n : Nat) :
    ZonesOnly (s.reportConflicts n s.zones.rows) (s.zoneArrival n) := by
  unfold State.zoneArrival
  refine ZonesOnly.trans ?_ (State.judged_zonesOnly _ _)
  have withdrawn : ZonesOnly (s.reportConflicts n s.zones.rows) ((s.reportConflicts n s.zones.rows).withdrawNotClear n) := rfl
  split
  · exact withdrawn.trans (State.selectFor_zonesOnly _ n)
  · exact withdrawn

theorem State.zoneArrival_keepsView (s : State) (n : Nat) : KeepsView s (s.zoneArrival n) :=
  (s.reportConflicts_keepsView n _).trans (s.zoneArrival_zonesOnly n).keepsView

/-- R97: an arrival at the zone guard leaves the conversion and the peers, or ends the one and drops the script peers. -/
theorem State.zoneArrival_cases (s : State) (n : Nat) :
    (s.zoneArrival n).seq = s.seq ∧ (s.zoneArrival n).peers = s.peers ∨
      s.seq.endedFrom (s.zoneArrival n).seq ∧
        (s.zoneArrival n).peers = if s.seq.state.atEase then s.peers else dropScript s.peers := by
  have only := s.zoneArrival_zonesOnly n
  have seq : (s.zoneArrival n).seq = (s.reportConflicts n s.zones.rows).seq := by rw [only]
  have peers : (s.zoneArrival n).peers = (s.reportConflicts n s.zones.rows).peers := by rw [only]
  rw [seq, peers]
  rcases s.reportConflicts_cases n s.zones.rows with same | ⟨reacts, dropped⟩
  · exact .inl ⟨by rw [same], by rw [same]⟩
  · exact .inr ⟨reacts.seq, dropped⟩

/-! ## The rows and the kinds held after an arrival -/

theorem State.peerAborts_fault (s : State) :
    s.peerAborts.fault = { s.fault with notice := some .peerAborted } := by
  rw [State.peerAborts, State.seqToAborted, State.judgeZoneWait_fault, State.requestStatus_fault]
  show (s.raiseNotice .peerAborted).stopRequested.fault = _
  rw [(State.stopRequested_motionOnly _)]
  rfl

/-- R110: the arrival at the sequencer changes no row, and clears no kind. -/
theorem State.seqArrival_rows (s : State) (n : Nat) : (s.seqArrival n).zones.rows = s.zones.rows := by
  unfold State.seqArrival
  split
  · split
    · split
      · rw [State.peerAborts, State.seqToAborted, State.judgeZoneWait_frame _ |>.rows]
        show (s.raiseNotice .peerAborted).stopRequested.zones.rows = _
        rw [State.stopRequested_motionOnly _]
        rfl
      · exact (State.advance_aftermath _ _).rows
    · rfl
  · rfl

theorem State.seqArrival_held (s : State) (n : Nat) {k : FaultKind} (h : k ∈ s.fault.held) :
    k ∈ (s.seqArrival n).fault.held := by
  unfold State.seqArrival
  split
  · split
    · split
      · rw [State.peerAborts_fault]; exact h
      · exact (State.advance_aftermath _ _).held k h
    · exact h
  · exact h

theorem State.reportConflicts_rows (n : Nat) (rows : List GuardRow) (s : State) :
    (s.reportConflicts n rows).zones.rows = s.zones.rows := by
  rcases s.reportConflicts_cases n rows with same | ⟨reacts, -⟩
  · rw [same]
  · exact reacts.frame.rows

/-- R97: a HELD row that the peer disputes, now and after every report, is a ZONE_CONFLICT. -/
theorem State.reportConflicts_held {n : Nat} {rows : List GuardRow} {s : State} {g : GuardRow} (mem : g ∈ rows)
    (held : g.guard = .held) (shares : n ∈ g.zone.peers)
    (disputes : ∀ t, KeepsView s t → t.peerConflicts g.zone.number n = true) :
    FaultKind.zoneConflict ∈ (s.reportConflicts n rows).fault.held := by
  have kept (t : State) (qs : List GuardRow) (h : FaultKind.zoneConflict ∈ t.fault.held) :
      FaultKind.zoneConflict ∈ (t.reportConflicts n qs).fault.held := by
    induction qs generalizing t with
    | nil => exact h
    | cons q qs ih =>
      unfold State.reportConflicts
      split
      · exact ih _ (State.report_held _ _ _)
      · exact ih t h
  induction rows generalizing s with
  | nil => cases mem
  | cons r rs ih =>
    unfold State.reportConflicts
    rcases List.mem_cons.mp mem with rfl | later
    · rw [if_pos ⟨held, shares, disputes s (.refl s)⟩]
      exact kept _ _ (State.report_held _ _ _)
    · refine ih later fun t k => disputes t (KeepsView.trans ?_ k)
      split
      · exact s.report_keepsView _ (by decide)
      · exact .refl s

/-- An arrival changes the guard of a row, and no zone (R88, R86). -/
theorem State.zoneArrival_row {s : State} (n : Nat) {i : Nat} {g : GuardRow} (row : s.zones.rows[i]? = some g) :
    ∃ g', (s.zoneArrival n).zones.rows[i]? = some g' ∧ g'.zone = g.zone := by
  let u := s.reportConflicts n s.zones.rows
  have here : u.zones.rows[i]? = some g := (congrArg (·[i]?) (s.reportConflicts_rows n _)).trans row
  have withdrawn : ∃ g', (u.withdrawNotClear n).zones.rows[i]? = some g' ∧ g'.zone = g.zone := by
    refine ⟨_, by rw [State.withdrawNotClear, List.getElem?_map, here]; rfl, ?_⟩
    simp only
    split <;> rfl
  have settled : (s.zoneArrival n).zones.rows = (if (u.withdrawNotClear n).zones.rows = u.zones.rows then
      (u.withdrawNotClear n).selectFor n else u.withdrawNotClear n).zones.rows := State.judged_rows _ u
  rw [settled]
  obtain ⟨g', left, zone⟩ := withdrawn
  split
  · unfold State.selectFor
    split
    · rcases State.select_row left with same | claims
      · exact ⟨g', same, zone⟩
      · exact ⟨_, claims, (State.claimOrWait_zone _ _).trans zone⟩
    · exact ⟨g', left, zone⟩
  · exact ⟨g', left, zone⟩

/-- R88: an arrival that leaves its peer not clear withdraws the claim that the peer shares. -/
theorem State.zoneArrival_withdraws {s : State} {n i : Nat} {g : GuardRow} (row : s.zones.rows[i]? = some g)
    (claiming : g.guard = .claiming) (shares : n ∈ g.zone.peers)
    (blocks : ∀ t (h : GuardRow), KeepsView s t → h.zone = g.zone → t.peerClear h n = false) :
    (s.zoneArrival n).zones.rows[i]? = some g.toWaiting := by
  let u := s.reportConflicts n s.zones.rows
  have view : KeepsView s u := s.reportConflicts_keepsView n _
  have here : u.zones.rows[i]? = some g := (congrArg (·[i]?) (s.reportConflicts_rows n _)).trans row
  have withdrawn : (u.withdrawNotClear n).zones.rows[i]? = some g.toWaiting := by
    rw [State.withdrawNotClear, List.getElem?_map, here]
    simp [claiming, shares, blocks u g view rfl]
  have settled : (s.zoneArrival n).zones.rows = (if (u.withdrawNotClear n).zones.rows = u.zones.rows then
      (u.withdrawNotClear n).selectFor n else u.withdrawNotClear n).zones.rows := State.judged_rows _ u
  rw [settled]
  split
  · exact State.selectFor_waits n withdrawn (State.allClear_false (g := g.toWaiting) shares
      (blocks (u.withdrawNotClear n) g.toWaiting (view.trans ⟨rfl, rfl, rfl, rfl, .inl rfl⟩) rfl))
  · exact withdrawn

end Sys2Proof.Machine
end

-- ==== Proofs: a status frame is heard ====
section
/-! SETTLES O33. The record that a status leaves, and what it does at the zone guard (R88, R97) and at the sequencer (R127,
R128, R137). -/

namespace Sys2Proof.Machine

/-! ## The record -/

/-- The low two bits of a zone entry are its state (section 9.2). -/
theorem Adv.ofCode_low (b : Byte) : Adv.ofCode (b.extractLsb' 0 2).toNat = Adv.ofCode (b.toNat % 4) := by
  simp [BitVec.extractLsb'_toNat]

/-- The low seven bits of the fault byte are the kind (section 9.2). -/
theorem fault_low (b : Byte) : (b.extractLsb' 0 7).toNat = b.toNat % 128 := by
  simp [BitVec.extractLsb'_toNat]

/-- The records after a status of station `n` (R109). -/
def State.shownBy (s : State) (n : Nat) (p : StatusPayload) : State :=
  { s with peers := modPeer n (PeerRecord.hear (peerStatusOf p)) s.peers }

theorem State.findPeer_shownBy {s : State} {n : Nat} {r : PeerRecord} (found : findPeer s.peers n = some r)
    (p : StatusPayload) : findPeer (s.shownBy n p).peers n = some (r.hear (peerStatusOf p)) :=
  findPeer_modPeer found (f := PeerRecord.hear (peerStatusOf p)) fun _ => rfl

/-- The zone guard has the arrival of a station with the role ZONE (R110). -/
def State.afterZones (s : State) (r : PeerRecord) (n : Nat) : State := if r.zoneRole then s.zoneArrival n else s

/-- Then the sequencer has that of a station with the role SCRIPT (R110). -/
def State.afterStatus (s : State) (r : PeerRecord) (n : Nat) : State :=
  if r.scriptRole then (s.afterZones r n).seqArrival n else s.afterZones r n

/-- R109, R110: a status for a held record goes to the zone guard and then to the sequencer, by the record's roles. -/
theorem State.statusArrival_of {s : State} {n : Nat} {r : PeerRecord} (found : findPeer s.peers n = some r)
    (p : StatusPayload) : s.statusArrival n p = (s.shownBy n p).afterStatus r n := by
  unfold State.statusArrival
  rw [found]
  rfl

/-- A status frame that is heard is handed on with the frame taken (R157). -/
theorem exec_statusFrame {s : State} {snd : Sender} {p : StatusPayload} (heard : s.hears snd) (short : p.zones.length ≤ 4) :
    exec (.statusFrame snd p) s =
      .next ((s.heard (Instr.statusFrame snd p).frame).statusArrival snd.station.toNat p) := by
  have wf : p.wf = true := decide_eq_true short
  have frame : (Instr.statusFrame snd p).frame = frameBytes 3#3 snd (statusBytes p) := by
    simp [Instr.frame, encodeFrame]
  refine (live_of_not_inReset (·.rxStatus snd p) heard.1).trans (congrArg _ ?_)
  rw [State.rxStatus, wf, frame]
  exact State.receive_of_hears heard _ _

theorem State.seqArrival_idle {s : State} (h : s.seq.converting = false) (n : Nat) : s.seqArrival n = s := by
  simp [State.seqArrival, h]

/-- A conversion that is at ease is not in progress. -/
theorem Sequencer.not_converting_of_atEase {q : Sequencer} (h : q.state.atEase = true) : q.converting = false := by
  cases e : q.state <;> simp [e, SeqState.atEase, Sequencer.converting] at h ⊢

/-! ## What an arrival keeps -/

theorem State.afterZones_keepsView (s : State) (r : PeerRecord) (n : Nat) : KeepsView s (s.afterZones r n) := by
  unfold State.afterZones
  split
  · exact s.zoneArrival_keepsView n
  · exact .refl s

theorem State.afterStatus_keepsView (s : State) (r : PeerRecord) (n : Nat) : KeepsView s (s.afterStatus r n) := by
  unfold State.afterStatus
  split
  · exact (s.afterZones_keepsView r n).trans (State.seqArrival_keepsView _ n)
  · exact s.afterZones_keepsView r n

/-- With no conversion in progress the zone guard alone has the arrival. -/
theorem State.afterStatus_zones {s : State} {r : PeerRecord} {n : Nat} (h : (s.afterZones r n).seq.converting = false) :
    s.afterStatus r n = s.afterZones r n := by
  unfold State.afterStatus
  rw [State.seqArrival_idle h n, ite_self]

/-- R107: at ease the arrival drops no record. -/
theorem State.afterStatus_atEase {s : State} (ease : s.seq.state.atEase = true) (r : PeerRecord) (n : Nat) :
    (s.afterStatus r n).peers = s.peers := by
  have ⟨peers, idle⟩ : (s.afterZones r n).peers = s.peers ∧ (s.afterZones r n).seq.converting = false := by
    unfold State.afterZones
    split
    · rcases s.zoneArrival_cases n with ⟨seq, peers⟩ | ⟨ended, peers⟩
      · exact ⟨peers, by rw [seq]; exact Sequencer.not_converting_of_atEase ease⟩
      · exact ⟨peers.trans (if_pos ease), Sequencer.not_converting_of_atEase ended.atEase⟩
    · exact ⟨rfl, Sequencer.not_converting_of_atEase ease⟩
  rw [State.afterStatus_zones idle, peers]

theorem State.afterStatus_rows (s : State) {r : PeerRecord} (zone : r.zoneRole = true) (n : Nat) :
    (s.afterStatus r n).zones.rows = (s.zoneArrival n).zones.rows := by
  have guarded : s.afterZones r n = s.zoneArrival n := if_pos zone
  unfold State.afterStatus
  rw [guarded]
  split
  · exact State.seqArrival_rows _ n
  · rfl

theorem State.afterStatus_held {s : State} {r : PeerRecord} (zone : r.zoneRole = true) {n : Nat} {k : FaultKind}
    (h : k ∈ (s.zoneArrival n).fault.held) : k ∈ (s.afterStatus r n).fault.held := by
  have guarded : s.afterZones r n = s.zoneArrival n := if_pos zone
  unfold State.afterStatus
  rw [guarded]
  split
  · exact State.seqArrival_held _ n h
  · exact h

/-! ## A neighbour that shows HELD (R88, R97) -/

/-- The entry of a zone in the record (R109). -/
theorem peerStatusOf_entry {p : StatusPayload} {k : Nat} {z : Byte × Byte}
    (entry : p.zones.find? (fun e => decide (e.1.toNat = k)) = some z) :
    (peerStatusOf p).zones.find? (fun e => decide (e.zone = k)) = some (peerZoneOf z) := by
  show (p.zones.map peerZoneOf).find? _ = _
  rw [List.find?_map]
  exact congrArg (Option.map peerZoneOf) entry

section ShowsHeld

variable {s : State} {r : PeerRecord} {n k : Nat} {p : StatusPayload} {z : Byte × Byte}
  (found : findPeer s.peers n = some (r.hear (peerStatusOf p))) (zone : r.zoneRole = true) (mode : p.mode = 2)
  (entry : p.zones.find? (fun e => decide (e.1.toNat = k)) = some z) (shows : z.2.extractLsb' 0 2 = 2#2)
include found zone mode entry shows

/-- R82: a neighbour that shows HELD is not clear, whatever records its arrival drops. -/
theorem State.peerClear_showsHeld (t : State) (h : GuardRow) (view : KeepsView s t) (here : h.zone.number = k) :
    t.peerClear h n = false := by
  obtain ⟨b, left⟩ := view.findPeer found zone
  have adv : (peerZoneOf z).adv = .held := by rw [peerZoneOf, shows]; rfl
  have operational : (peerStatusOf p).mode = modeOperational := by rw [peerStatusOf, mode]; rfl
  simp [State.peerClear, left, PeerRecord.hear, PeerStatus.says, operational, here, peerStatusOf_entry entry,
    PeerSays.clearFor, adv]

/-- R97: a neighbour that shows HELD disputes the zone, whatever records its arrival drops. -/
theorem State.peerConflicts_showsHeld (t : State) (view : KeepsView s t) : t.peerConflicts k n = true := by
  obtain ⟨b, left⟩ := view.findPeer found zone
  have adv : (peerZoneOf z).adv = .held := by rw [peerZoneOf, shows]; rfl
  have operational : (peerStatusOf p).mode = modeOperational := by rw [peerStatusOf, mode]; rfl
  simp [State.peerConflicts, left, PeerRecord.hear, PeerStatus.says, operational, peerStatusOf_entry entry,
    PeerSays.conflicts, adv]

end ShowsHeld

/-- R97: a HELD row that the peer disputes stays HELD, with ZONE_CONFLICT latched. -/
theorem State.zoneArrival_conflict {s : State} {n i : Nat} {g : GuardRow} (row : s.zones.rows[i]? = some g)
    (held : g.guard = .held) (shares : n ∈ g.zone.peers)
    (disputes : ∀ t, KeepsView s t → t.peerConflicts g.zone.number n = true) :
    (s.zoneArrival n).zones.rows[i]? = some g ∧ FaultKind.zoneConflict ∈ (s.zoneArrival n).fault.held := by
  refine ⟨(s.zoneArrival_steady n).held i g row held, ?_⟩
  rw [s.zoneArrival_zonesOnly n]
  exact State.reportConflicts_held (List.mem_of_getElem? row) held shares disputes

/-! ## The abort (R127, R137) -/

/-- R137: each REQUESTED axis is stopped, and another axis stands as it was. -/
theorem State.stopRequested_axis (s : State) (x : Axis) :
    if s.seq.move x = .requested then (s.axis x).stoppedBy .controlled (s.stopRequested.axis x)
    else s.stopRequested.axis x = s.axis x := by
  let u := if s.seq.rakeMove = .requested then s.stopAxis .rake .controlled else s
  have slew : u.axis .slew = s.axis .slew := by
    unfold u
    split
    · exact s.stopAxis_other .rake .controlled
    · rfl
  have rake : s.stopRequested.axis .rake = u.axis .rake := by
    unfold State.stopRequested
    simp only
    split
    · exact State.stopAxis_other _ .slew .controlled
    · rfl
  have ends : s.stopRequested.axis .slew =
      if s.seq.slewMove = .requested then (u.stopAxis .slew .controlled).axis .slew else s.axis .slew := by
    unfold State.stopRequested
    simp only
    split
    · rfl
    · exact slew
  cases x with
  | slew =>
    show if s.seq.slewMove = .requested then _ else _
    rw [ends]
    split
    · rw [← slew]
      exact (u.stopAxis_halts .slew .controlled).stoppedBy
    · rfl
  | rake =>
    show if s.seq.rakeMove = .requested then _ else _
    rw [rake]
    unfold u
    split
    · exact (s.stopAxis_halts .rake .controlled).stoppedBy
    · rfl

theorem State.stopAxis_sensesSame (s : State) (x : Axis) (k : StopKind) (y : Axis) :
    (s.axis y).sensesSame ((s.stopAxis x k).axis y) := by
  rcases eq_or_eq_otherAxis x y with rfl | rfl
  · exact (s.stopAxis_halts y k).sensesSame
  · rw [s.stopAxis_other x k]
    exact .refl _

theorem State.stopRequested_sensesSame (s : State) (x : Axis) : (s.axis x).sensesSame (s.stopRequested.axis x) :=
  State.stopRequested_chain (R := fun s t => (s.axis x).sensesSame (t.axis x)) (fun _ => .refl _) .trans
    (fun s y => s.stopAxis_sensesSame y _ x) s

theorem State.stopRequested_marks (s : State) : s.seq.MarksMoves s.stopRequested.seq :=
  State.stopRequested_chain (R := fun s t => s.seq.MarksMoves t.seq) (fun s => .refl s.seq) .trans
    (fun s x => s.stopAxis_marks x _) s

theorem State.stopRequested_runEnds (s : State) : s.mon.RunEnds s.stopRequested.mon :=
  State.stopRequested_chain (R := fun s t => s.mon.RunEnds t.mon) (fun _ => .inl rfl) .trans
    (fun s x => s.stopAxis_runEnds x _) s

/-- R137: what the abort leaves of the axes, the conversion and the enable. -/
theorem State.peerAborts_ends {s : State} (h : s.seq.converting = true) :
    (∀ x, s.peerAborts.axis x = (s.raiseNotice .peerAborted).stopRequested.axis x) ∧ s.seq.endedFrom s.peerAborts.seq ∧
      s.peerAborts.mon.present = s.mon.present ∧ s.stopsOnly s.peerAborts := by
  let u := s.raiseNotice .peerAborted
  have marks : s.seq.MarksMoves u.stopRequested.seq := u.stopRequested_marks
  have ends := u.stopRequested.seqToAborted_ends ((Sequencer.converting_iff _).mp (marks.converting.trans h))
  have axis (x : Axis) : s.peerAborts.axis x = u.stopRequested.axis x := by
    cases x
    · exact ends.slew
    · exact ends.rake
  refine ⟨axis, .ofMarks marks ends.seq, ?_, ?_⟩
  · have same : s.peerAborts.mon = u.stopRequested.mon := ends.mon
    rw [same]
    rcases u.stopRequested_runEnds with e | e <;> rw [e] <;> rfl
  · refine (((Frame.ofFault s _).trans u.stopRequested_frame).trans ends.frame).stopsOnly fun x => ?_
    exact axis x ▸ u.stopRequested_sensesSame x

/-- R127: the record of a script peer that says ABORTED for the layout. -/
theorem State.showsAborted_iff (s : State) (r : PeerRecord) (p : StatusPayload) :
    s.showsAborted (r.hear (peerStatusOf p)) = true ↔ p.seqState = 5 ∧ p.layout.toNat = s.seq.layout := by
  have code : p.seqState.toNat = 5 ↔ p.seqState = 5 := ⟨fun e => BitVec.eq_of_toNat_eq e, fun e => by rw [e]; rfl⟩
  simp [State.showsAborted, PeerRecord.hear, peerStatusOf, code]

/-! ## The conditions (R127, R128) -/

/-- R127: a status of station `n` meets a condition on it in a conversion of a layout. -/
def MeetsCond (p : StatusPayload) (n layout : Nat) (c : Nat × Nat) : Prop :=
  c.1 = n ∧ p.layout.toNat = layout ∧ (c.2 < p.step.toNat ∨ (p.step.toNat = c.2 ∧ p.phase = 4) ∨ p.seqState = 4)

/-- R127: the record of a status meets the conditions that the status meets. -/
theorem State.condMet_shown {s : State} {n : Nat} {r : PeerRecord} {p : StatusPayload}
    (found : findPeer s.peers n = some (r.hear (peerStatusOf p))) (c : Nat × Nat) :
    (decide (c.1 = n) && s.condMet c) = true ↔ MeetsCond p n s.seq.layout c := by
  have phase : p.phase.toNat = 4 ↔ p.phase = 4 := ⟨fun e => BitVec.eq_of_toNat_eq e, fun e => by rw [e]; rfl⟩
  have state : p.seqState.toNat = 4 ↔ p.seqState = 4 := ⟨fun e => BitVec.eq_of_toNat_eq e, fun e => by rw [e]; rfl⟩
  by_cases own : c.1 = n
  · simp [State.condMet, MeetsCond, own, found, PeerRecord.hear, peerStatusOf, phase, state, or_assoc]
  · simp [MeetsCond, own]

/-- The flags after a test of the conditions that name station `n`. -/
def State.metBy (s : State) (n : Nat) : List Bool :=
  List.zipWith (fun m c => m || (decide (c.1 = n) && s.condMet c)) s.seq.met s.currentStep.conds

theorem State.metBy_getElem? {s : State} {n i : Nat} {c : Nat × Nat} {m : Bool} (cond : s.currentStep.conds[i]? = some c)
    (flag : s.seq.met[i]? = some m) : (s.metBy n)[i]? = some (m || (decide (c.1 = n) && s.condMet c)) := by
  simp [State.metBy, List.getElem?_zipWith, cond, flag]

/-- R127: a set flag stays set, and a clear one is set by a status that meets its condition. -/
theorem State.metBy_flags {s : State} {n : Nat} {r : PeerRecord} {p : StatusPayload}
    (found : findPeer s.peers n = some (r.hear (peerStatusOf p))) {i : Nat} {c : Nat × Nat}
    (cond : s.currentStep.conds[i]? = some c) :
    (s.seq.met[i]? = some true → (s.metBy n)[i]? = some true) ∧
      (s.seq.met[i]? = some false → MeetsCond p n s.seq.layout c → (s.metBy n)[i]? = some true) ∧
      (s.seq.met[i]? = some false → ¬ MeetsCond p n s.seq.layout c → (s.metBy n)[i]? = some false) := by
  have test := State.condMet_shown found c
  refine ⟨fun set => ?_, fun clear is => ?_, fun clear unmet => ?_⟩
  · rw [State.metBy_getElem? cond set]; rfl
  · rw [State.metBy_getElem? cond clear, test.mpr is]; rfl
  · rw [State.metBy_getElem? cond clear, Bool.eq_false_iff.mpr (mt test.mp unmet)]; rfl

/-- All flags are set when each condition was met or is met. -/
theorem State.metBy_all {s : State} {n : Nat} (h : ∀ (i : Nat) (c : Nat × Nat), s.currentStep.conds[i]? = some c →
    s.seq.met[i]? = some true ∨ (decide (c.1 = n) && s.condMet c) = true) : (s.metBy n).all id = true := by
  refine List.all_eq_true.mpr fun b mem => ?_
  obtain ⟨i, at_i⟩ := List.mem_iff_getElem?.mp mem
  obtain ⟨m, c, flag, cond, rfl⟩ := List.getElem?_zipWith_eq_some.mp at_i
  rcases h i c cond with was | is
  · cases flag.symm.trans was
    rfl
  · simp [is]

/-- The phases wait in WAIT_PEERS while a flag is clear (R128). -/
theorem State.runPhases_waitPeers {s : State} (phase : s.seq.phase = .waitPeers) (unmet : s.seq.met.all id = false) :
    s.runPhases = s := by
  show State.advance (63 + 1) s = s
  rw [State.advance]
  split
  · simp only [phase]
    rw [unmet]
    rfl
  · rfl

/-- R127, R128: in PAUSED, and with a condition unmet, the test sets flags alone. -/
theorem State.runPhases_tested {s : State} {n : Nat} {r : PeerRecord} {p : StatusPayload}
    (found : findPeer s.peers n = some (r.hear (peerStatusOf p)))
    (h : s.seq.state = .paused ∨ s.seq.phase = .waitPeers ∧ ∃ (i : Nat) (c : Nat × Nat),
      s.currentStep.conds[i]? = some c ∧ s.seq.met[i]? = some false ∧ ¬ MeetsCond p n s.seq.layout c) :
    ({ s with seq := { s.seq with met := s.metBy n } } : State).runPhases =
      { s with seq := { s.seq with met := s.metBy n } } := by
  rcases h with paused | ⟨phase, i, c, cond, clear, unmet⟩
  · exact State.runPhases_waits (.inl (by simp [paused]))
  · refine State.runPhases_waitPeers phase (List.all_eq_false.mpr ⟨false, ?_, by decide⟩)
    obtain ⟨-, -, stays⟩ := State.metBy_flags found cond
    exact List.mem_of_getElem? (stays clear unmet)

/-! ## The end of WAIT_PEERS (R128) -/

/-- R23, R40: an axis in OFF with no limit ACTIVE starts its handshake with a POSITION request whose target lies within the soft
limits, or is not judged by them. -/
theorem State.request_within {s : State} {x : Axis} {target : Int} (v : Nat) (q : Requester) (off : (s.axis x).state = .off)
    (unready : (s.axis x).ready = false) (free : s.comm.restartPending = false) (neg : (s.axis x).negLimit = false)
    (pos : (s.axis x).posLimit = false)
    (inside : (s.axis x).referenced = true → (s.params x).softLo ≤ target ∧ target ≤ (s.params x).softHi) :
    s.request x { goal := .position target v, asker := q } = s.setAxis x { s.axis x with
      p := (s.axis x).e, f := 0, state := .starting .awaitReady, timer := some 500, driveEnable := true, brakeRelease := false
      pending := some { goal := .position target (clampSpeed (s.params x) v), asker := q } } := by
  have stands : (s.axis x).referenced = true → clampInt (s.params x).softLo (s.params x).softHi target = target := by
    intro ref
    obtain ⟨lo, hi⟩ := inside ref
    unfold clampInt
    omega
  have goal : clampGoal (s.params x) (s.axis x).referenced (.position target v) =
      .position target (clampSpeed (s.params x) v) := by
    cases ref : (s.axis x).referenced
    · rfl
    · simp [clampGoal, stands ref]
  have quiet : s.noticed x (.position target v) = s := by
    refine if_neg ?_
    cases ref : (s.axis x).referenced
    · simp [targetLimited]
    · simp [targetLimited, stands ref]
  rw [State.request_eq, State.clamped, goal, quiet, if_neg (by simp [AxisUnit.lockRefuses_free neg pos]),
    State.placeRequest_off _ off free unready]

/-- The state in which the slew has been asked for a step's target (R128, R40). -/
def State.slewAsked (s : State) (target : Int) (v : Nat) : State :=
  { s with
    bus := s.requestStatus.bus, seq := { s.seq with phase := .moving, slewMove := .requested }
    slew := { s.slew with
      p := s.slew.e, f := 0, state := .starting .awaitReady, timer := some 500, driveEnable := true, brakeRelease := false
      pending := some { goal := .position target (clampSpeed (s.params .slew) (256 * v)), asker := .sequencer } } }

section AsksSlew

variable {s : State} {target : Int} {v : Nat} (running : s.seq.state = .running) (phase : s.seq.phase = .waitPeers)
  (met : s.seq.met.all id = true) (slew : s.currentStep.slew = some (target, v)) (rake : s.currentStep.rake = none)
  (off : s.slew.state = .off) (unready : s.slew.ready = false) (free : s.comm.restartPending = false)
  (neg : s.slew.negLimit = false) (pos : s.slew.posLimit = false)
  (inside : s.slew.referenced = true → (s.params .slew).softLo ≤ target ∧ target ≤ (s.params .slew).softHi)

include running slew rake off unready free neg pos inside in
/-- R128: a step with a slew target alone asks the slew, which in OFF starts its handshake. -/
theorem State.startMoving_slew : s.startMoving = s.slewAsked target v := by
  have given : s.startMoving =
      (({ s with seq := { s.seq with phase := .moving } } : State).requestStatus).giveTarget .slew := by
    simp only [State.startMoving, slew, rake]
  have pair : (({ s with seq := { s.seq with phase := .moving } } : State).requestStatus).currentStep.pair .slew =
      some (target, v) := slew
  rw [given, State.giveTarget, if_pos (by exact running), pair]
  exact State.request_within (x := .slew) (256 * v) .sequencer off unready free neg pos inside

include running phase met slew rake off unready free neg pos inside in
/-- R128, R129: the last condition met ends WAIT_PEERS, and MOVING waits for the slew it has asked. -/
theorem State.runPhases_asksSlew : s.runPhases = s.slewAsked target v := by
  have waits : State.advance (62 + 1) (s.slewAsked target v) = s.slewAsked target v := by
    rw [State.advance]
    split <;> rfl
  show State.advance (63 + 1) s = s.slewAsked target v
  rw [State.advance, if_pos running]
  simp only [phase, met, if_true]
  rw [State.startMoving_slew running slew rake off unready free neg pos inside]
  exact waits

end AsksSlew

/-! ## A script peer's status in a conversion -/

section Converting

variable {s : State} {r : PeerRecord} {n : Nat} {p : StatusPayload}
  (found : findPeer s.peers n = some (r.hear (peerStatusOf p)))
  (converting : s.seq.converting = true)
include found converting

theorem State.seqArrival_aborts (aborts : p.seqState = 5 ∧ p.layout.toNat = s.seq.layout) : s.seqArrival n = s.peerAborts := by
  have shown := (s.showsAborted_iff r p).mpr aborts
  simp only [State.seqArrival, converting, found, shown, if_true]

theorem State.seqArrival_tests (aborts : ¬ (p.seqState = 5 ∧ p.layout.toNat = s.seq.layout)) :
    s.seqArrival n = ({ s with seq := { s.seq with met := s.metBy n } } : State).runPhases := by
  have shown : s.showsAborted (r.hear (peerStatusOf p)) = false :=
    Bool.eq_false_iff.mpr fun e => aborts ((s.showsAborted_iff r p).mp e)
  simp only [State.seqArrival, converting, found, shown, if_true]
  rfl

/-- R127, R97: an abort shown ends the conversion, be it by the sequencer or by a conflict before it. -/
theorem State.afterStatus_aborts (script : r.scriptRole = true) (aborts : p.seqState = 5 ∧ p.layout.toNat = s.seq.layout) :
    s.seq.endedFrom (s.afterStatus r n).seq ∧ (s.afterStatus r n).peers = dropScript s.peers := by
  have busy : ¬ s.seq.state.atEase = true := fun ease => by
    rw [Sequencer.not_converting_of_atEase ease] at converting
    cases converting
  have seen : (s.afterZones r n).seq = s.seq ∧ (s.afterZones r n).peers = s.peers ∨
      s.seq.endedFrom (s.afterZones r n).seq ∧ (s.afterZones r n).peers = dropScript s.peers := by
    unfold State.afterZones
    split
    · exact (s.zoneArrival_cases n).imp id fun ⟨ended, peers⟩ => ⟨ended, peers.trans (if_neg busy)⟩
    · exact .inl ⟨rfl, rfl⟩
  rcases seen with ⟨seq, peers⟩ | ⟨ended, peers⟩
  · have ends : s.afterStatus r n = (s.afterZones r n).peerAborts := by
      rw [State.afterStatus, if_pos script]
      exact State.seqArrival_aborts (peers ▸ found) (seq ▸ converting) (seq ▸ aborts)
    rw [ends, State.peerAborts_peers, peers]
    exact ⟨seq ▸ (State.peerAborts_ends (seq ▸ converting)).2.1, rfl⟩
  · rw [State.afterStatus_zones (Sequencer.not_converting_of_atEase ended.atEase)]
    exact ⟨ended, peers⟩

end Converting

/-! ## The parts of the statement -/

/-- A script peer without the role ZONE meets the sequencer alone. -/
theorem State.afterStatus_script {s : State} {r : PeerRecord} (script : r.scriptRole = true) (zone : r.zoneRole = false)
    (n : Nat) : s.afterStatus r n = s.seqArrival n := by
  simp [State.afterStatus, State.afterZones, script, zone]

/-- R109: the record of the station after its arrival. -/
theorem State.afterStatus_record {s : State} {r : PeerRecord} {n : Nat} {p : StatusPayload}
    (found : findPeer s.peers n = some (r.hear (peerStatusOf p)))
    (kept : r.zoneRole = true ∨ s.seq.converting = false) :
    ∃ b, findPeer (s.afterStatus r n).peers n = some { r.hear (peerStatusOf p) with scriptRole := b } := by
  cases zone : r.zoneRole
  · have guarded : s.afterZones r n = s := by simp [State.afterZones, zone]
    have idle : s.seq.converting = false := kept.resolve_left (by simp [zone])
    rw [State.afterStatus_zones (by rw [guarded]; exact idle), guarded]
    exact ⟨r.scriptRole, found⟩
  · exact (s.afterStatus_keepsView r n).findPeer found zone

/-- R88, R97: the row of a zone that a neighbour shows HELD, after the arrival. -/
theorem State.afterStatus_showsHeld {s : State} {r : PeerRecord} {n i : Nat} {p : StatusPayload} {z : Byte × Byte}
    {g : GuardRow} (found : findPeer s.peers n = some (r.hear (peerStatusOf p))) (zone : r.zoneRole = true)
    (row : s.zones.rows[i]? = some g) (shares : n ∈ g.zone.peers) (mode : p.mode = 2)
    (entry : p.zones.find? (fun e => decide (e.1.toNat = g.zone.number)) = some z) (shows : z.2.extractLsb' 0 2 = 2#2) :
    ∃ g', (s.afterStatus r n).zones.rows[i]? = some g' ∧ g'.zone = g.zone ∧
      (g.guard = .claiming → g'.guard = .waiting ∧ g'.waited = true ∧ g'.window = none) ∧
      (g.guard = .held → g'.guard = .held ∧ FaultKind.zoneConflict ∈ (s.afterStatus r n).fault.held) := by
  obtain ⟨g', row', same⟩ := State.zoneArrival_row n row
  have is {h : GuardRow} (at_i : (s.zoneArrival n).zones.rows[i]? = some h) : g' = h := Option.some.inj (row'.symm.trans at_i)
  refine ⟨g', by rw [s.afterStatus_rows zone]; exact row', same, fun claiming => ?_, fun held => ?_⟩
  · rw [is (State.zoneArrival_withdraws row claiming shares fun t h view here =>
      State.peerClear_showsHeld found zone mode entry shows t h view (by rw [here]))]
    exact ⟨rfl, rfl, rfl⟩
  · obtain ⟨stands, latched⟩ := State.zoneArrival_conflict row held shares
      (State.peerConflicts_showsHeld found zone mode entry shows)
    rw [is stands]
    exact ⟨held, State.afterStatus_held zone latched⟩

/-- Settles O33: the arrival at the zone guard keeps the record and what R88 and R97 make of the row; the arrival at the
sequencer is the abort, or the test of the conditions with the phases that it ends. -/
theorem statusHeard : Obligations.StatusHeard := by
  unfold Obligations.StatusHeard
  intro s snd p r heard short n row shown heardBy aborts meets stop
  let u := (s.heard row.frame).shownBy n p
  have run : exec row s = .next ((s.heard row.frame).statusArrival n p) := exec_statusFrame heard short
  have shows : shown (peerStatusOf p) := by
    refine ⟨rfl, rfl, rfl, rfl, rfl, rfl, rfl, rfl, rfl, rfl, rfl, rfl, rfl, ?_, fault_low p.fault, rfl⟩
    refine List.map_congr_left fun z _ => ?_
    rw [peerZoneOf, Adv.ofCode_low]
    rfl
  have arrives (found : findPeer s.peers n = some r) : exec row s = .next (u.afterStatus r n) :=
    run.trans (congrArg _ (State.statusArrival_of (s := s.heard row.frame) found p))
  have record (found : findPeer s.peers n = some r) : findPeer u.peers n = some (r.hear (peerStatusOf p)) :=
    State.findPeer_shownBy (s := s.heard row.frame) found p
  have view := u.afterStatus_keepsView r n
  have tests (found : findPeer s.peers n = some r) (script : r.scriptRole = true) (zone : r.zoneRole = false)
      (converting : s.seq.converting = true) (others : ¬ aborts) :
      exec row s = .next ({ u with seq := { u.seq with met := u.metBy n } } : State).runPhases :=
    (arrives found).trans (congrArg _ ((State.afterStatus_script script zone n).trans
      (State.seqArrival_tests (record found) converting others)))
  refine ⟨fun none_ => ?_, fun found kept => ?_, fun i g z found zone at_i shares mode entry held => ?_,
    fun found script converting abort => ?_, fun found script zone converting others => ⟨fun waits => ?_, ?_⟩⟩
  · rw [run]
    unfold State.statusArrival
    rw [show findPeer (s.heard row.frame).peers n = none from none_]
  · obtain ⟨b, left⟩ := State.afterStatus_record (record found) kept
    exact ⟨_, _, _, arrives found, List.mem_of_find?_eq_some left, by simpa using List.find?_some left, rfl, rfl, rfl, rfl,
      shows, fun ease => State.afterStatus_atEase (s := u) ease r n, view.env, view.nv, view.comm, view.store⟩
  · obtain ⟨g', row', rest⟩ := State.afterStatus_showsHeld (record found) zone at_i shares mode entry held
    exact ⟨_, g', arrives found, row', rest⟩
  · obtain ⟨ended, dropped⟩ := State.afterStatus_aborts (s := u) (record found) converting script abort
    refine ⟨_, arrives found, ended, fun o mem => dropScript_scriptRole (dropped ▸ mem), view.comm, view.nv, view.env,
      view.store, fun zone => ?_⟩
    have ends : u.afterStatus r n = u.peerAborts :=
      (State.afterStatus_script script zone n).trans (State.seqArrival_aborts (record found) converting abort)
    obtain ⟨axis, -, present, only⟩ := State.peerAborts_ends (s := u) converting
    have stopped (x : Axis) : stop x u.peerAborts := by
      show if s.seq.move x = .requested then (s.axis x).stoppedBy .controlled (u.peerAborts.axis x)
        else u.peerAborts.axis x = s.axis x
      rw [axis x]
      exact (u.raiseNotice .peerAborted).stopRequested_axis x
    rw [ends]
    exact ⟨u.peerAborts_fault, stopped .slew, stopped .rake, present, only, _, shows, u.peerAborts_peers⟩
  · exact ⟨u.metBy n, _, (tests found script zone converting others).trans
      (congrArg _ (State.runPhases_tested (s := u) (record found) waits)), shows,
      fun i c cond => State.metBy_flags (s := u) (record found) cond⟩
  · intro target v running phase all slew rake off unready free neg pos inside
    have met : (u.metBy n).all id = true := State.metBy_all fun i c cond =>
      (all i c cond).imp id (State.condMet_shown (record found) c).mpr
    exact ⟨u.metBy n, _, _, (tests found script zone converting others).trans (congrArg _ (State.runPhases_asksSlew
      (s := { u with seq := { u.seq with met := u.metBy n } }) running phase met slew rake off unready free neg pos inside)),
      shows, State.requestStatus_pending _⟩

end Sys2Proof.Machine
end

-- ==== Proofs: frames received, and a double of this station ====
section
/-! SETTLES O9. Every frame row is its frame, received from its sender (R156, R157), and a sender that is a double of this station
is met by a report of DUPLICATE_STATION, which isolates (R113, R166, R171). -/

namespace Sys2Proof.Machine

/-! ## A frame row received (R156, R157) -/

/-- R164: a kind that is not 1 to 15 goes to no owner. -/
theorem State.rxByKind_undefined (s : State) {kind : Byte} (undefined : kind = 0 ∨ 15 < kind.toNat) (r : ServiceReq) :
    s.rxByKind kind r = s.rxUndefined kind r := by
  have outside : kind.toNat = 0 ∨ 15 < kind.toNat := undefined.imp_left fun zero => by rw [zero]; rfl
  unfold State.rxByKind
  split
  on_goal 16 => rfl
  all_goals omega

/-- A COMMAND row is its frame, received and given to the block that its kind names (R157, R162). -/
theorem exec_commandRow {c : Instr} {h : CommandHead} (head : c.commandHead = some h) :
    c.sender = some h.sender ∧ ∃ kind args defined owner, c.frame = commandFrame kind h args ∧
      ∀ s, exec c s = live (fun t => t.receiveCommand kind h args defined owner) s := by
  cases c <;> cases head <;> exact ⟨rfl, _, _, _, _, rfl, fun _ => rfl⟩

/-- A SERVICE_REQ row is its frame, received and given to the owner of its kind (R157, R164). -/
theorem exec_requestRow {c : Instr} {kind : Byte} {r : ServiceReq} (request : c.serviceReq = some (kind, r)) (wf : c.wf = true) :
    c.sender = some r.sender ∧ r.wf = true ∧ c.frame = serviceFrame kind r ∧
      ∃ owner, ∀ s, exec c s = live (fun t => t.receiveRequest kind r owner) s := by
  cases c
  case undefinedServiceReq =>
    cases request
    simp only [Instr.wf, Bool.and_eq_true, Bool.not_eq_true', Bool.and_eq_false_iff, decide_eq_false_iff_not] at wf
    obtain ⟨fits, undefined⟩ := wf
    have outside : kind = 0 ∨ 15 < kind.toNat :=
      undefined.imp (fun low => BitVec.eq_of_toNat_eq (by simpa using low)) (by omega)
    refine ⟨rfl, fits, rfl, fun t => (t, .reply .refusedArgs []), fun s => ?_⟩
    exact congrArg (live · s) (funext fun t => t.rxByKind_undefined outside r)
  all_goals (cases request <;> exact ⟨rfl, wf, rfl, _, fun _ => rfl⟩)

/-- A well-formed frame row is its frame, received from its sender and handed to the block that its class asks for. -/
theorem exec_frameRow {c : Instr} {snd : Sender} (sender : c.sender = some snd) (wf : c.wf = true) :
    ∃ handOff, ∀ s, exec c s = live (fun t => t.receive c.frame true snd handOff) s := by
  cases head : c.commandHead with
  | some h =>
    obtain ⟨same, kind, args, defined, owner, frame, row⟩ := exec_commandRow head
    cases same.symm.trans sender
    exact ⟨(·.command h defined owner), fun s => by rw [row, frame]; rfl⟩
  | none =>
    cases request : c.serviceReq with
    | some q =>
      obtain ⟨same, fits, frame, owner, row⟩ := exec_requestRow (kind := q.1) (r := q.2) request wf
      cases same.symm.trans sender
      refine ⟨(·.service q.1 q.2 owner), fun s => ?_⟩
      rw [row, frame]
      unfold State.receiveRequest
      rw [fits]
    | none =>
      suffices row : ∃ handOff, ∀ s, exec c s = live (fun t => t.receive c.frame c.wf snd handOff) s by rwa [wf] at row
      cases c
      case stopFrame | enableFrame | statusFrame | serviceReplyFrame => cases sender; exact ⟨_, fun _ => rfl⟩
      all_goals simp [Instr.sender, Instr.commandHead, Instr.serviceReq] at sender head request

/-! ## The duplicate check (R113) -/

/-- R113, R157: a good frame with this station's number and another unit tag is reported, and the frame is not handed on. -/
theorem State.receive_double {s : State} {snd : Sender} (mode : s.comm.mode ≠ .start) (straps : s.comm.straps ≠ 0)
    (number : snd.station.toNat = s.comm.straps) (tag : snd.unitTag ≠ s.nv.unitTag) (frame : List Byte)
    (handOff : State → State) :
    s.receive frame true snd handOff =
      (s.heard frame).report .duplicateStation { axis := none, zone := none, peer := some s.comm.straps } := by
  let u := s.heard frame
  have examined : u.examines = true := by
    unfold State.examines
    split
    · next start => exact absurd start mode
    · exact decide_eq_true straps
    all_goals rfl
  have reported : u.checkDuplicate snd =
      u.report .duplicateStation { axis := none, zone := none, peer := some s.comm.straps } := if_pos ⟨straps, number, tag⟩
  show u.sortFrame snd handOff = _
  unfold State.sortFrame
  rw [if_pos examined, reported]
  refine if_pos ?_
  rw [State.report_duplicate]
  rfl

/-- Settles O9: the frame is met by the report of DUPLICATE_STATION, and that report ends in the entry into ISOLATED. -/
theorem duplicateIsolates : Obligations.DuplicateIsolates := by
  unfold Obligations.DuplicateIsolates
  intro s c snd awake mode straps wf sender number tag line
  let u := s.heard c.frame
  let fields : FaultFields := { axis := none, zone := none, peer := some s.comm.straps }
  let t := u.report .duplicateStation fields
  obtain ⟨handOff, row⟩ := exec_frameRow sender wf
  have run : exec c s = .next t :=
    (row s).trans ((live_of_not_inReset _ awake).trans (congrArg _ (State.receive_double mode straps number tag _ _)))
  have calm : Calm u t := u.report_calm .duplicateStation fields
  have held : FaultKind.duplicateStation ∈ t.fault.held := u.report_held .duplicateStation fields
  have driven : t.fault.drivesStop = true := (calm.line line).1.trans (List.any_eq_true.mpr ⟨_, held, rfl⟩)
  have ended : t.mon.run = .none := by rw [show t.mon = _ from (u.report_halts .duplicateStation fields).2.2.2]
  have fewer : t.peers.length ≤ u.peers.length := by simpa using calm.peers.length_le
  have isolated : t = (u.reacted .duplicateStation fields).enterIsolated := u.report_duplicate fields
  refine ⟨t, run, ?_, held, driven, fun empty => ⟨_, u.report_record _ _ empty, rfl, rfl⟩, ?_, ?_, ?_, ?_, ?_, ?_, ended, fewer,
    calm.nv⟩
  all_goals rw [isolated]; rfl

end Sys2Proof.Machine
end

-- ==== Proofs: a CANCEL ====
section
/-! SETTLES O40. A CANCEL finds the sequencer at ease, ARMED or in a conversion, and ends what it finds (R107, R125, R136). -/

namespace Sys2Proof.Machine

/-! ## The owner's judgement (R125, R136) -/

theorem State.ownCancel_atEase {s : State} (h : s.seq.state.atEase = true) : s.ownCancel = (s, .done) := by
  unfold State.ownCancel
  split <;> simp_all [SeqState.atEase]

theorem State.ownCancel_armed {s : State} (h : s.seq.state = .armed) : s.ownCancel = (s.seqToIdle, .done) := by
  unfold State.ownCancel
  rw [h]

theorem State.ownCancel_converting {s : State} (h : s.seq.converting = true) :
    s.ownCancel = (s.stopRequested.seqToAborted, .done) := by
  unfold State.ownCancel
  rcases (Sequencer.converting_iff _).mp h with e | e <;> rw [e]

/-! ## What the end of a conversion by a CANCEL leaves -/

/-- The conversion ended and its script peers dropped, each REQUESTED axis of a conversion in progress stopped and another left
as it was (R107, R125, R136). -/
structure Cancels (s t : State) : Prop where
  frame : Frame s t
  seq : s.seq.endedFrom t.seq
  peers : t.peers = dropScript s.peers
  fault : t.fault = s.fault
  mon : s.mon.RunEnds t.mon
  senses : ∀ x, (s.axis x).sensesSame (t.axis x)
  axis : ∀ x, if s.seq.converting = true ∧ s.seq.move x = .requested then (s.axis x).stoppedBy .controlled (t.axis x)
    else t.axis x = s.axis x

theorem EndsConversion.axis {s t : State} (h : EndsConversion s t) (x : Axis) : t.axis x = s.axis x := by
  cases x
  · exact h.slew
  · exact h.rake

/-- R125: out of ARMED no axis is stopped. -/
theorem State.seqToIdle_cancels {s : State} (armed : s.seq.state = .armed) : Cancels s s.seqToIdle := by
  have ends := s.seqToIdle_ends armed
  refine ⟨ends.frame, ends.seq, rfl, rfl, .inl ends.mon, fun x => ends.axis x ▸ .refl _, fun x => ?_⟩
  rw [if_neg (by simp [Sequencer.converting, armed])]
  exact ends.axis x

/-- R136: a conversion in progress is aborted after the controlled stops of its REQUESTED axes. -/
theorem State.stopRequested_seqToAborted_cancels {s : State} (converting : s.seq.converting = true) :
    Cancels s s.stopRequested.seqToAborted := by
  have marks := s.stopRequested_marks
  have motion := s.stopRequested_motionOnly
  have ends := s.stopRequested.seqToAborted_ends ((Sequencer.converting_iff _).mp (marks.converting.trans converting))
  refine ⟨s.stopRequested_frame.trans ends.frame, .ofMarks marks ends.seq, ?_, ?_, ?_, fun x => ?_, fun x => ?_⟩
  · rw [State.seqToAborted_peers, motion.peers]
  · rw [State.seqToAborted, State.judgeZoneWait_fault, State.requestStatus_fault]
    show s.stopRequested.fault = s.fault
    rw [motion]
  · rw [ends.mon]
    exact s.stopRequested_runEnds
  · rw [ends.axis]
    exact s.stopRequested_sensesSame x
  · rw [ends.axis]
    simpa only [converting, true_and] using s.stopRequested_axis x

/-- A CANCEL that finds a conversion ends it, and is done. -/
theorem State.ownCancel_cancels {s : State} (busy : s.seq.state.atEase = false) :
    Cancels s s.ownCancel.1 ∧ s.ownCancel.2 = .done := by
  rcases s.seq.state_cases with ease | armed | converting
  · simp [ease] at busy
  · rw [State.ownCancel_armed armed]
    exact ⟨State.seqToIdle_cancels armed, rfl⟩
  · rw [State.ownCancel_converting converting]
    exact ⟨State.stopRequested_seqToAborted_cancels converting, rfl⟩

/-- An outcome given leaves what a CANCEL does beside the bus. -/
theorem Cancels.giveOutcome {s t : State} (h : Cancels s t) (c n : Nat) (o : CmdOutcome) : Cancels s (t.giveOutcome c n o) := by
  have frame := h.frame.trans (t.giveOutcome_frame c n o)
  have axis (x : Axis) : (t.giveOutcome c n o).axis x = t.axis x := by cases x <;> rfl
  exact ⟨frame, h.seq, h.peers, h.fault, h.mon, fun x => axis x ▸ h.senses x, fun x => axis x ▸ h.axis x⟩

/-! ## The statement -/

/-- A CANCEL of a configured console gets its owner's outcome on the state that has heard it. -/
theorem exec_cancel {s : State} {h : CommandHead} (c : s.commanded h) :
    exec (.cancel h) s = .next ((s.heard (Instr.cancel h).frame).ownCancel.1.giveOutcome h.sender.station.toNat h.tag.toNat
      (s.heard (Instr.cancel h).frame).ownCancel.2) := by
  have awake : s.inReset = false := c.1.1
  exact (live_of_not_inReset (·.rxCancel h) awake).trans
    (congrArg _ (State.receiveCommand_of_commanded c 2 [] State.ownCancel))

/-- Settles O40: at ease a CANCEL is done as it is, and otherwise its owner ends the conversion before the outcome is given. -/
theorem cancelTaken : Obligations.CancelTaken := by
  unfold Obligations.CancelTaken
  intro s h x commanded row
  let u := s.heard row.frame
  refine ⟨fun ease => ?_, fun busy => ?_⟩
  · rw [exec_cancel commanded, State.ownCancel_atEase (s := u) ease]
  · obtain ⟨cancels, done⟩ := State.ownCancel_cancels (s := u) busy
    let t := u.ownCancel.1.giveOutcome h.sender.station.toNat h.tag.toNat .done
    have run : exec row s = .next t := by rw [exec_cancel commanded, done]
    have left : Cancels u t := cancels.giveOutcome _ _ _
    have axis := left.axis x
    refine ⟨t, run, left.seq, left.frame.stopsOnly left.senses, State.giveOutcome_outcome _ _ _ _,
      State.requestStatus_pending _, left.peers, left.fault, fun converting requested => ?_, fun other => ?_, fun none_ => ?_⟩
    · rwa [if_pos ⟨converting, requested⟩] at axis
    · rwa [if_neg fun both => other.elim (fun idle => Bool.noConfusion (idle.symm.trans both.1)) (· both.2)] at axis
    · refine left.mon.elim id fun ended => ended.trans ?_
      rw [← none_]
      rfl

end Sys2Proof.Machine
end

-- ==== Proofs: requests that only read ====
section
/-! SETTLES O49. The answers of the requests that only read, and the lengths of their data (R115, R164, R176, R187, R188). -/

namespace Sys2Proof.Machine

/-! ## Lengths of the data -/

theorem Slot.bytes_length (sl : Slot) : sl.bytes.length = 2 := by
  unfold Slot.bytes
  split <;> rfl

/-- R188: the tag, three bytes, and two for each slot. -/
theorem State.identifyData_length (s : State) : s.identifyData.length = 6 + 2 * s.nv.slots.length := by
  have slots (ls : List Slot) : (ls.flatMap Slot.bytes).length = 2 * ls.length := by
    induction ls with
    | nil => rfl
    | cons sl ls ih => rw [List.flatMap_cons, List.length_append, sl.bytes_length, ih, List.length_cons]; omega
  unfold State.identifyData
  rw [List.length_append, slots]
  rfl

/-- R176: twelve bytes of the record, two sets, the notice and the line. -/
theorem State.faultData_length (s : State) : s.faultData.length = 18 := by
  have record : (faultRecordBytes s.fault.record).length = 12 := by
    unfold faultRecordBytes
    split <;> rfl
  simp only [State.faultData, List.length_append, record]
  rfl

/-- R188: the reference state, the count, and ten bytes of the capture record. -/
theorem AxisUnit.captureData_length (a : AxisUnit) : a.captureData.length = 13 := by
  unfold AxisUnit.captureData
  cases a.referenced <;> cases a.capture <;> rfl

/-! ## Arguments -/

theorem axisOfByte_axisByte (x : Axis) : axisOfByte (axisByte x) = some x := by cases x <;> decide

theorem axisOfByte_of_undefined {k : Byte} (undefined : 1 < k.toNat) : axisOfByte k = none := by
  unfold axisOfByte
  rw [if_neg, if_neg]
  · rintro rfl; exact absurd undefined (by decide)
  · rintro rfl; exact absurd undefined (by decide)

theorem slotNumber_of_outside {k : Byte} (outside : k = 0 ∨ 12 < k.toNat) : slotNumber k = none := by
  refine if_neg fun inside => ?_
  rcases outside with rfl | past
  · exact absurd inside.1 (by decide)
  · exact absurd inside.2 (Nat.not_le.mpr past)

/-- R187: a slot argument of 1 to 12 names that slot. -/
theorem State.slotNumber_slot {s : State} {k : Byte} {sl : Slot} (least : 1 ≤ k.toNat) (most : k.toNat ≤ 12)
    (there : s.nv.slots[k.toNat - 1]? = some sl) : (slotNumber k).bind s.slot = some sl := by
  have number : slotNumber k = some k.toNat := if_pos ⟨least, most⟩
  rw [number, Option.bind_some, State.slot, if_neg (by omega), there]

/-! ## The owners' answers -/

/-- R188: selector 0 asks for the list. -/
theorem State.peersAnswer_list (s : State) :
    s.peersAnswer 0 = .reply .ok (toByte s.peers.length :: s.peers.flatMap PeerRecord.listBytes) := rfl

/-- R188: a station with a record is answered with it. -/
theorem State.peersAnswer_record {s : State} {n : Nat} {p : PeerRecord} (least : 1 ≤ n) (most : n ≤ 31)
    (found : findPeer s.peers n = some p) : s.peersAnswer n = .reply .ok p.recordBytes := by
  rw [State.peersAnswer, if_neg (by omega), if_neg (by omega), found]

/-- R188: no station, or one without a record. -/
theorem State.peersAnswer_refused {s : State} {n : Nat} (one : n ≠ 0) (unknown : 31 < n ∨ findPeer s.peers n = none) :
    s.peersAnswer n = .reply .refusedArgs [] := by
  rw [State.peersAnswer, if_neg one]
  split
  · rfl
  · next within => rw [unknown.resolve_left within]

theorem State.ownReadSlot_of_slot {s : State} {k i : Byte} {sl : Slot} (slot : (slotNumber k).bind s.slot = some sl) :
    s.ownReadSlot [k, i] = (s, if s.store.job.isSome then .reply .busy []
      else .reply .ok (sl.cellForm (i.toNat % sl.wrap) ++ sl.cellForm ((i.toNat + 1) % sl.wrap))) := by
  simp only [State.ownReadSlot, slot]
  split <;> rfl

/-- A request whose owner changes nothing and replies at once (R164). -/
theorem live_request_reply {s : State} {r : ServiceReq} {n : Nat} (h : s.requested r n)
    (restart : s.comm.restartPending = false) {kind : Byte} {owner : State → State × Answer} {o : SvcOutcome} {data : List Byte}
    (reads : owner (s.asked kind r n) = (s.asked kind r n, .reply o data)) :
    live (fun t => t.receiveRequest kind r owner) s = .next (s.replied kind r n o.code.toNat data) := by
  rw [live_request h restart kind owner, reads]
  exact congrArg _ (s.asked_reply kind r n o data)

/-- Settles O49: each owner answers the state in which it is asked, whose parts it reads are those of the state before. -/
theorem readsAnswered : Obligations.ReadsAnswered := by
  unfold Obligations.ReadsAnswered
  intro s r n requested restart seen
  have answers {c : Instr} {kind : Byte} {owner : State → State × Answer} (o : SvcOutcome) {data : List Byte}
      (row : exec c s = live (fun t => t.receiveRequest kind r owner) s)
      (reads : owner (s.asked kind r n) = (s.asked kind r n, .reply o data)) :
      exec c s = .next (s.replied kind r n o.code.toNat data) := row.trans (live_request_reply requested restart reads)
  have identify (o : SvcOutcome) {data : List Byte} := answers (c := .identify r) o (data := data) rfl
  have peers (o : SvcOutcome) {data : List Byte} := answers (c := .readPeers r) o (data := data) rfl
  have capture (o : SvcOutcome) {data : List Byte} := answers (c := .readCapture r) o (data := data) rfl
  have slot (o : SvcOutcome) {data : List Byte} := answers (c := .readSlot r) o (data := data) rfl
  refine ⟨fun args => ?_, fun twelve => ?_, fun args => ?_, ⟨?_, s.faultData_length⟩, fun args => ?_,
    fun k p args least most found => ?_, fun k args one unknown => ?_, fun x args => ⟨?_, (s.axis x).captureData_length⟩,
    fun k args undefined => ?_, fun k i sl args least most there => ?_, fun k i args outside => ?_,
    fun k undefined => ?_⟩
  · exact identify .ok (by rw [State.ownIdentify, if_pos args]; rfl)
  · rw [seen.identifyData_length, twelve]
  · exact identify .refusedArgs (by rw [State.ownIdentify, if_neg args])
  · exact answers (c := .readFault r) .ok (owner := fun t => (t, .reply .ok t.faultData)) rfl rfl
  · exact peers .ok (by rw [args]; exact congrArg _ (s.asked 3 r n).peersAnswer_list)
  · exact peers .ok (by rw [args]; exact congrArg _ (State.peersAnswer_record least most found))
  · have nonzero : k.toNat ≠ 0 := fun zero => one (BitVec.eq_of_toNat_eq zero)
    exact peers .refusedArgs (by rw [args]; exact congrArg _ (State.peersAnswer_refused nonzero unknown))
  · exact capture .ok (by rw [args]; simp only [State.ownReadCapture, axisOfByte_axisByte]; cases x <;> rfl)
  · exact capture .refusedArgs (by rw [args]; simp only [State.ownReadCapture, axisOfByte_of_undefined undefined])
  · have read : (s.asked 5 r n).ownReadSlot [k, i] = _ := State.ownReadSlot_of_slot (State.slotNumber_slot least most there)
    refine ⟨fun busy => slot .busy ?_, fun idle => slot .ok ?_⟩
    · rw [args, read]
      exact congrArg _ (if_pos busy)
    · have free : ¬ s.store.job.isSome = true := by simp [idle]
      rw [args, read]
      exact congrArg _ (if_neg free)
  · exact slot .refusedArgs (by rw [args]; simp only [State.ownReadSlot, slotNumber_of_outside outside, Option.bind_none])
  · exact answers (c := .undefinedServiceReq k r) .refusedArgs (owner := fun t => (t, .reply .refusedArgs []))
      (congrArg (live · s) (funext fun t => t.rxByKind_undefined undefined r)) rfl

end Sys2Proof.Machine
end

-- ==== Proofs: the law of the step index ====
section
/-! SETTLES O59. What carries the law of the step index (R131, R185, R186), and why every step keeps it: stops and faults end a
conversion or leave its step, the phases go to a next step only below the count, an accepted CONVERT takes its count from a slot that
stands, and the store writes no header that counts nothing. -/

namespace Sys2Proof.Machine

/-! ## The law in its parts -/

/-- R131: while ARMED, RUNNING or PAUSED the step index is less than the step count. -/
def Sequencer.indexed (q : Sequencer) : Prop := q.state = .armed ∨ q.converting = true → q.step < q.count

/-- R186: a slot that stands PROGRAMMED or LOCKED counts at least one step. -/
def Slot.counts (sl : Slot) : Prop :=
  ∀ h, sl.header = some h → sl.state = .programmed ∨ sl.state = .locked → 1 ≤ h.count

/-- R185: what a FINALIZE_SLOT writes, and what a LOCK_SLOT locks, counts at least one step. -/
def StoreOp.counts (slots : List Slot) : StoreOp → Prop
  | .finalize _ _ count _ => 1 ≤ count
  | .lock n => ∀ sl, slots[n - 1]? = some sl → ∀ h, sl.header = some h → 1 ≤ h.count
  | .erase _ => True
  | .program _ _ _ => True
  | .commit _ => True

theorem State.stepIndexOk_iff (s : State) :
    s.stepIndexOk ↔ s.seq.indexed ∧ (s.comm.mode ≠ .start → ∀ sl ∈ s.nv.slots, sl.counts) ∧
      ∀ j, s.store.job = some j → j.op.counts s.nv.slots := by
  refine ⟨fun ⟨index, slots, finalizes, locks⟩ => ⟨index, slots, fun j job => ?_⟩,
    fun ⟨index, slots, jobs⟩ => ⟨index, slots, fun j n lay cnt chk job op => ?_, fun j n job op => ?_⟩⟩
  · cases op : j.op with
    | finalize n lay cnt chk => exact finalizes j n lay cnt chk job op
    | lock n => exact locks j n job op
    | _ => trivial
  · have counted := jobs j job
    rwa [op] at counted
  · have counted := jobs j job
    rwa [op] at counted

theorem Sequencer.indexed_of_atEase {q : Sequencer} (h : q.state.atEase = true) : q.indexed := by
  rintro (armed | converting)
  · rw [armed] at h; cases h
  · rw [q.not_converting_of_atEase h] at converting; cases converting

/-- A sequencer with the same place in its script keeps the law. -/
theorem Sequencer.indexed.of_same {q r : Sequencer} (h : q.indexed) (state : r.state = q.state) (step : r.step = q.step)
    (count : r.count = q.count) : r.indexed := by
  unfold Sequencer.indexed Sequencer.converting at h ⊢
  rwa [state, step, count]

theorem Sequencer.MarksMoves.indexed {q r : Sequencer} (h : q.MarksMoves r) (i : q.indexed) : r.indexed :=
  i.of_same h.state (by rw [h.1]) (by rw [h.1])

theorem Sequencer.indexed.setMove {q : Sequencer} (h : q.indexed) (x : Axis) (m : MoveState) : (q.setMove x m).indexed :=
  h.of_same (q.setMove_state x m) (q.setMove_step x m) (by cases x <;> rfl)

/-! ## Changes that keep the law -/

/-- Going from `s` to `t` leaves the slots and the operation under way alone, ends no START, and keeps the step index in place. -/
structure KeepsPlace (s t : State) : Prop where
  start : s.comm.mode = .start → t.comm.mode = .start
  nv : t.nv = s.nv
  job : t.store.job = s.store.job
  index : s.seq.indexed → t.seq.indexed

/-- Going from `s` to `t` keeps the law of the step index. -/
def KeepsIndex (s t : State) : Prop := s.stepIndexOk → t.stepIndexOk

theorem KeepsPlace.refl (s : State) : KeepsPlace s s := ⟨id, rfl, rfl, id⟩

theorem KeepsPlace.trans {s t u : State} (h : KeepsPlace s t) (k : KeepsPlace t u) : KeepsPlace s u :=
  ⟨fun e => k.start (h.start e), k.nv.trans h.nv, k.job.trans h.job, fun i => k.index (h.index i)⟩

theorem KeepsPlace.keeps {s t : State} (h : KeepsPlace s t) : KeepsIndex s t := by
  intro ok
  rw [State.stepIndexOk_iff] at ok ⊢
  obtain ⟨index, slots, jobs⟩ := ok
  rw [h.nv, h.job]
  exact ⟨h.index index, fun mode => slots fun e => mode (h.start e), jobs⟩

/-- A change that meets none of what carries the law. -/
theorem KeepsPlace.beside {s t : State} (comm : t.comm.mode = s.comm.mode) (nv : t.nv = s.nv)
    (job : t.store.job = s.store.job) (seq : t.seq = s.seq) : KeepsPlace s t :=
  ⟨fun e => comm.trans e, nv, job, fun i => seq ▸ i⟩

theorem KeepsPlace.ofSetAxis (s : State) (x : Axis) (a : AxisUnit) : KeepsPlace s (s.setAxis x a) := by
  cases x <;> exact .beside rfl rfl rfl rfl

theorem KeepsPlace.ofSeqPeers (s : State) {q : Sequencer} (ps : List PeerRecord) (h : s.seq.indexed → q.indexed) :
    KeepsPlace s { s with seq := q, peers := ps } := ⟨id, rfl, rfl, h⟩

theorem Frame.keepsPlace {s t : State} (h : Frame s t) (index : s.seq.indexed → t.seq.indexed) : KeepsPlace s t :=
  ⟨fun e => by rw [h.comm]; exact e, h.nv, by rw [h.store], index⟩

theorem ZonesOnly.keepsPlace {s t : State} (h : ZonesOnly s t) : KeepsPlace s t := by
  apply KeepsPlace.beside <;> rw [h]

theorem Tells.keepsPlace {x : Axis} {s t : State} (h : Tells x s t) : KeepsPlace s t := h.frame.keepsPlace h.seq.indexed

theorem Reacts.keepsPlace {k : StopKind} {s t : State} (h : Reacts k s t) : KeepsPlace s t :=
  h.frame.keepsPlace fun _ => Sequencer.indexed_of_atEase h.seq.atEase

/-! ## Stops, faults and ends -/

theorem State.requestStatus_keepsPlace (s : State) : KeepsPlace s s.requestStatus := .beside rfl rfl rfl rfl

theorem State.giveOutcome_keepsPlace (s : State) (c n : Nat) (o : CmdOutcome) : KeepsPlace s (s.giveOutcome c n o) :=
  .beside rfl rfl rfl rfl

theorem State.judgeZoneWait_keepsPlace (s : State) : KeepsPlace s s.judgeZoneWait := s.judgeZoneWait_zonesOnly.keepsPlace

theorem State.setReferenced_keepsPlace (s : State) (x : Axis) (r : Bool) : KeepsPlace s (s.setReferenced x r) := by
  unfold State.setReferenced
  split
  · exact .refl s
  · exact (KeepsPlace.ofSetAxis s x _).trans (State.requestStatus_keepsPlace _)

theorem State.stopAxis_keepsPlace (s : State) (x : Axis) (k : StopKind) : KeepsPlace s (s.stopAxis x k) :=
  (s.stopAxis_frame x k).keepsPlace (s.stopAxis_marks x k).indexed

theorem State.faultAxis_keepsPlace (s : State) (x : Axis) : KeepsPlace s (s.faultAxis x) :=
  (KeepsPlace.ofSetAxis s x _).trans (s.faultAxis_tells x).keepsPlace

theorem State.stopRequested_keepsPlace (s : State) : KeepsPlace s s.stopRequested :=
  s.stopRequested_frame.keepsPlace s.stopRequested_marks.indexed

theorem State.seqToIdle_keepsPlace (s : State) : KeepsPlace s s.seqToIdle :=
  ⟨id, rfl, rfl, fun _ => Sequencer.indexed_of_atEase rfl⟩

theorem State.seqToAborted_keepsPlace (s : State) : KeepsPlace s s.seqToAborted := by
  refine KeepsPlace.trans ?_ (State.judgeZoneWait_keepsPlace _)
  exact ⟨id, rfl, rfl, fun _ => Sequencer.indexed_of_atEase rfl⟩

theorem State.endRun_keepsPlace (s : State) : KeepsPlace s s.endRun :=
  s.endRun_frame.keepsPlace fun i => s.endRun_seq ▸ i

theorem State.report_keepsPlace (s : State) {k : FaultKind} (f : FaultFields) (hk : k ≠ .duplicateStation) :
    KeepsPlace s (s.report k f) := (s.report_reacts k f hk).keepsPlace

/-- R171: a double of this station isolates, out of START alone (R166). -/
theorem State.checkDuplicate_keepsPlace {s : State} (h : s.comm.mode ≠ .start) (snd : Sender) :
    KeepsPlace s (s.checkDuplicate snd) := by
  unfold State.checkDuplicate
  split
  · rw [State.report_duplicate]
    have reacted := (s.reacted_reacts .duplicateStation { axis := none, zone := none, peer := some s.station }).keepsPlace
    exact reacted.trans ⟨fun e => absurd e (by rw [(State.reacted_reacts s _ _).frame.comm]; exact h), rfl, rfl, id⟩
  · exact .refl s

/-! ## Requests -/

theorem State.refuseRequest_keepsPlace (s : State) (x : Axis) (q : Requester) : KeepsPlace s (s.refuseRequest x q) := by
  cases q with
  | sequencer => exact s.report_keepsPlace _ (by decide)
  | enableMonitor => exact (s.tellStopped_tells x (some .enableMonitor)).keepsPlace
  | positionUnit => exact (s.tellStopped_tells x (some .positionUnit)).keepsPlace

theorem State.releaseExpired_keepsPlace (s : State) (x : Axis) : KeepsPlace s (s.releaseExpired x) := by
  unfold State.releaseExpired
  simp only
  split
  · exact .ofSetAxis s x _
  · split
    · exact (KeepsPlace.ofSetAxis s x _).trans (State.refuseRequest_keepsPlace _ x _)
    · exact .ofSetAxis s x _

theorem State.readyTaken_keepsPlace (s : State) (x : Axis) : KeepsPlace s (s.readyTaken x) := by
  unfold State.readyTaken
  simp only
  split
  · exact (KeepsPlace.ofSetAxis s x _).trans (State.releaseExpired_keepsPlace _ x)
  · exact .ofSetAxis s x _

theorem State.placeRequest_keepsPlace (s : State) (x : Axis) (r : Request) : KeepsPlace s (s.placeRequest x r) := by
  unfold State.placeRequest State.startUp
  simp only
  split
  · split
    · exact .refl s
    · split
      · exact (KeepsPlace.ofSetAxis s x _).trans (State.readyTaken_keepsPlace _ x)
      · exact .ofSetAxis s x _
  · exact .ofSetAxis s x _
  · exact .ofSetAxis s x _
  · exact .ofSetAxis s x _
  · exact .ofSetAxis s x _
  · exact (s.tellStopped_tells x _).keepsPlace

theorem State.request_keepsPlace (s : State) (x : Axis) (r : Request) : KeepsPlace s (s.request x r) := by
  have noticed : KeepsPlace s (s.noticed x r.goal) := by
    rw [State.noticed_eq]
    exact .beside rfl rfl rfl rfl
  rw [State.request_eq]
  split
  · exact noticed.trans (State.refuseRequest_keepsPlace _ x _)
  · exact noticed.trans (State.placeRequest_keepsPlace _ x _)

theorem State.takeAtOff_keepsPlace (s : State) (x : Axis) : KeepsPlace s (s.takeAtOff x) := by
  unfold State.takeAtOff
  simp only
  split
  · exact (KeepsPlace.ofSetAxis s x _).trans (State.request_keepsPlace _ x _)
  · exact .refl s

theorem State.takeAtStopEnd_keepsPlace (s : State) (x : Axis) : KeepsPlace s (s.takeAtStopEnd x) := by
  unfold State.takeAtStopEnd
  simp only
  split
  · split
    · exact (KeepsPlace.ofSetAxis s x _).trans (State.refuseRequest_keepsPlace _ x _)
    · exact .ofSetAxis s x _
  · exact .refl s

theorem State.holdExpired_keepsPlace (s : State) (x : Axis) : KeepsPlace s (s.holdExpired x) :=
  (KeepsPlace.ofSetAxis s x _).trans (State.takeAtOff_keepsPlace _ x)

/-! ## The sequencer (R126 to R137) -/

theorem State.testConds_keepsPlace (s : State) (f : Nat → Bool) : KeepsPlace s (s.testConds f) :=
  ⟨id, rfl, rfl, fun i => i.of_same rfl rfl rfl⟩

/-- R126: a step below the count is started. -/
theorem State.startStep_keepsPlace {s : State} {k : Nat} (below : s.seq.indexed → k < s.seq.count) :
    KeepsPlace s (s.startStep k) := ⟨id, rfl, rfl, fun i _ => below i⟩

theorem State.giveTarget_keepsPlace (s : State) (x : Axis) : KeepsPlace s (s.giveTarget x) := by
  unfold State.giveTarget
  split
  · split
    · exact (KeepsPlace.ofSeqPeers s s.peers fun i => i.setMove x .requested).trans (State.request_keepsPlace _ x _)
    · exact .refl s
  · exact .refl s

theorem State.startMoving_keepsPlace (s : State) : KeepsPlace s s.startMoving := by
  have begun : KeepsPlace s (({ s with seq := { s.seq with phase := .moving } } : State).requestStatus) :=
    ⟨id, rfl, rfl, fun i => i.of_same rfl rfl rfl⟩
  have holds (t : State) (x : Axis) : KeepsPlace t { t with seq := t.seq.setMove x .heldBack } :=
    .ofSeqPeers t t.peers fun i => i.setMove x _
  unfold State.startMoving
  simp only
  split
  · exact begun
  · exact begun.trans (State.giveTarget_keepsPlace _ .slew)
  · exact begun.trans (State.giveTarget_keepsPlace _ .rake)
  · split
    · exact begun.trans ((State.giveTarget_keepsPlace _ .rake).trans (State.giveTarget_keepsPlace _ .slew))
    · exact begun.trans ((holds _ .slew).trans (State.giveTarget_keepsPlace _ .rake))
    · exact begun.trans ((holds _ .rake).trans (State.giveTarget_keepsPlace _ .slew))

/-- R131: a DONE step hands over below the count only. -/
theorem State.finishStep_keepsPlace (s : State) : KeepsPlace s s.finishStep := by
  unfold State.finishStep
  split
  · next below => exact (State.startStep_keepsPlace fun _ => below).trans (State.testConds_keepsPlace _ _)
  · exact ⟨id, rfl, rfl, fun _ => Sequencer.indexed_of_atEase rfl⟩

theorem State.advance_keepsPlace (n : Nat) (s : State) : KeepsPlace s (State.advance n s) := by
  induction n generalizing s with
  | zero => exact .refl s
  | succ n ih =>
    have dwells : KeepsPlace s (({ s with seq := { s.seq with phase := .dwell, dwellElapsed := 0 } } : State).requestStatus) :=
      ⟨id, rfl, rfl, fun i => i.of_same rfl rfl rfl⟩
    unfold State.advance
    split
    · split
      · split
        · exact s.startMoving_keepsPlace.trans (ih _)
        · exact .refl s
      · split
        · exact dwells.trans (ih _)
        · exact .refl s
      · split
        · exact s.finishStep_keepsPlace.trans (ih _)
        · exact .refl s
      · exact .refl s
      · exact .refl s
    · exact .refl s

theorem State.testedPhases_keepsPlace (s : State) (f : Nat → Bool) : KeepsPlace s (s.testConds f).runPhases :=
  (s.testConds_keepsPlace f).trans (State.advance_keepsPlace _ _)

theorem State.seqArrived_keepsPlace (s : State) (x : Axis) : KeepsPlace s (s.seqArrived x) := by
  have arrived : KeepsPlace s { s with seq := s.seq.setMove x .arrived } := .ofSeqPeers s s.peers fun i => i.setMove x _
  unfold State.seqArrived
  split
  · simp only
    refine KeepsPlace.trans ?_ (State.advance_keepsPlace _ _)
    split
    · exact arrived.trans (State.giveTarget_keepsPlace _ _)
    · exact arrived
  · exact .refl s

theorem State.dwellEnds_keepsPlace (s : State) : KeepsPlace s s.dwellEnds := by
  have dwelt : KeepsPlace s { s with seq := { s.seq with dwellElapsed := s.currentStep.dwellMs } } :=
    .ofSeqPeers s s.peers fun i => i.of_same rfl rfl rfl
  unfold State.dwellEnds
  split
  · exact (dwelt.trans (State.finishStep_keepsPlace _)).trans (State.advance_keepsPlace _ _)
  · exact .refl s

theorem State.peerAborts_keepsPlace (s : State) : KeepsPlace s s.peerAborts := by
  have noticed : KeepsPlace s (s.raiseNotice .peerAborted) := .beside rfl rfl rfl rfl
  exact (noticed.trans (State.stopRequested_keepsPlace _)).trans (State.seqToAborted_keepsPlace _)

theorem State.seqArrival_keepsPlace (s : State) (n : Nat) : KeepsPlace s (s.seqArrival n) := by
  unfold State.seqArrival
  split
  · split
    · split
      · exact s.peerAborts_keepsPlace
      · exact s.testedPhases_keepsPlace _
    · exact .refl s
  · exact .refl s

/-- R123: an ARMED script counts a step 0. -/
theorem State.holdOffExpires_keepsPlace (s : State) : KeepsPlace s s.holdOffExpires := by
  unfold State.holdOffExpires
  split
  · next armed =>
    have first : s.seq.indexed → 0 < s.seq.count := fun i => Nat.zero_lt_of_lt (i (.inl armed))
    have started (st : SeqState) :
        KeepsPlace s (({ s with seq := { s.seq with state := st, holdOff := none } } : State).startStep 0) :=
      ⟨id, rfl, rfl, fun i _ => first i⟩
    simp only
    generalize (if s.mon.present then SeqState.running else SeqState.paused) = st
    have begun := (started st).trans (State.judgeZoneWait_keepsPlace _)
    split
    · exact begun.trans (State.peerAborts_keepsPlace _)
    · exact begun.trans (State.testedPhases_keepsPlace _ _)
  · exact .refl s

/-- A conversion paused or resumed keeps its place (R133, R135). -/
theorem Sequencer.indexed.converts {q : Sequencer} (h : q.indexed) (c : q.converting = true) (st : SeqState) :
    ({ q with state := st } : Sequencer).indexed := fun _ => h (.inr c)

theorem State.pause_keepsPlace (s : State) : KeepsPlace s s.pause := by
  unfold State.pause
  split
  · next running =>
    have paused : KeepsPlace s (({ s with seq := { s.seq with state := .paused } } : State).requestStatus) :=
      ⟨id, rfl, rfl, fun i => i.converts ((s.seq.converting_iff).mpr (.inl running)) _⟩
    exact (paused.trans (State.judgeZoneWait_keepsPlace _)).trans (State.stopRequested_keepsPlace _)
  · exact .refl s

theorem State.resumeAxis_keepsPlace (s : State) (q : Sequencer) (x : Axis) : KeepsPlace s (s.resumeAxis q x) := by
  unfold State.resumeAxis
  split
  · exact s.giveTarget_keepsPlace x
  · split
    · exact s.giveTarget_keepsPlace x
    · exact .refl s
  all_goals exact .refl s

theorem State.resume_keepsPlace (s : State) : KeepsPlace s s.resume := by
  unfold State.resume
  split
  · next paused =>
    have running : KeepsPlace s (({ s with seq := { s.seq with state := .running } } : State).requestStatus) :=
      ⟨id, rfl, rfl, fun i => i.converts ((s.seq.converting_iff).mpr (.inr paused)) _⟩
    have begun := running.trans (State.judgeZoneWait_keepsPlace _)
    simp only
    split
    · exact begun.trans (State.testedPhases_keepsPlace _ _)
    · exact begun.trans (((State.resumeAxis_keepsPlace _ _ _).trans (State.resumeAxis_keepsPlace _ _ _)).trans
        (State.advance_keepsPlace _ _))
    all_goals exact begun
  · exact .refl s

theorem State.discard_keepsPlace (s : State) : KeepsPlace s s.discard := by
  have annulled : KeepsPlace s s.annul := by
    unfold State.annul
    split
    · split
      · exact s.seqToIdle_keepsPlace.trans (State.giveOutcome_keepsPlace _ _ _ _)
      · exact s.seqToIdle_keepsPlace
    · exact .refl s
  unfold State.discard
  split
  · exact .refl s
  · exact annulled
  · exact annulled
  · exact annulled
  · exact .refl s

/-! ## Position units and handshake -/

theorem State.encoderSlip_keepsPlace (s : State) (x : Axis) : KeepsPlace s (s.encoderSlip x) :=
  (s.setReferenced_keepsPlace x false).trans (State.report_keepsPlace _ _ (by decide))

theorem State.transition_keepsPlace (s : State) (x : Axis) (a b : Bool) : KeepsPlace s (s.transition x a b) := by
  unfold State.transition
  simp only
  split
  · exact .refl s
  · exact (KeepsPlace.ofSetAxis s x _).trans (State.encoderSlip_keepsPlace _ x)
  · split
    · exact (KeepsPlace.ofSetAxis s x _).trans (State.encoderSlip_keepsPlace _ x)
    · exact .ofSetAxis s x _

theorem State.takeMark_keepsPlace (s : State) (x : Axis) : KeepsPlace s (s.takeMark x) := by
  have captured (a : AxisUnit) (n : Nat) : KeepsPlace s { s.setAxis x a with fresh := n } :=
    (KeepsPlace.ofSetAxis s x a).trans (.beside rfl rfl rfl rfl)
  unfold State.takeMark
  simp only
  split
  · exact (((captured _ _).trans (.ofSetAxis _ x _)).trans (State.setReferenced_keepsPlace _ x true)).trans
      (State.stopAxis_keepsPlace _ x _)
  · exact (captured _ _).trans (State.encoderSlip_keepsPlace _ x)
  · exact captured _ _
  · exact captured _ _

theorem State.switchCloses_keepsPlace (s : State) : KeepsPlace s s.switchCloses := by
  have closed : KeepsPlace s { s with rake := { s.rake with refSwitch := true } } := .ofSetAxis s .rake _
  unfold State.switchCloses
  split
  · exact .refl s
  · simp only
    split
    · exact closed.trans (State.takeMark_keepsPlace _ _)
    · exact closed

theorem State.switchOpens_keepsPlace (s : State) : KeepsPlace s s.switchOpens := by
  have opened (l : Option Leg) : KeepsPlace s { s with rake := { s.rake with refSwitch := false, leg := l } } :=
    .ofSetAxis s .rake _
  unfold State.switchOpens
  split
  · simp only
    split
    · exact (opened _).trans (State.request_keepsPlace _ _ _)
    · exact opened _
  · exact .refl s

theorem State.limitMet_keepsPlace (s : State) (x : Axis) : KeepsPlace s (s.limitMet x) := by
  have second : KeepsPlace s (s.secondLimit x) :=
    ((KeepsPlace.ofSetAxis s x _).trans (State.report_keepsPlace _ _ (by decide))).trans
      (State.report_keepsPlace _ _ (by decide))
  unfold State.limitMet
  split
  · exact (KeepsPlace.ofSetAxis s x _).trans (State.request_keepsPlace _ x _)
  · exact s.report_keepsPlace _ (by decide)
  · exact s.report_keepsPlace _ (by decide)
  all_goals exact second

theorem State.limitActive_keepsPlace (s : State) (x : Axis) (d : Dir) : KeepsPlace s (s.limitActive x d) := by
  unfold State.limitActive
  split
  · exact .refl s
  · simp only
    split
    · exact (KeepsPlace.ofSetAxis s x _).trans (State.limitMet_keepsPlace _ x)
    · exact .ofSetAxis s x _

theorem State.readyActive_keepsPlace (s : State) (x : Axis) : KeepsPlace s (s.readyActive x) := by
  unfold State.readyActive
  split
  · exact .refl s
  · simp only
    split
    · exact (KeepsPlace.ofSetAxis s x _).trans (State.readyTaken_keepsPlace _ x)
    · exact .ofSetAxis s x _

theorem State.driveFault_keepsPlace (s : State) (x : Axis) : KeepsPlace s (s.driveFault x) :=
  (s.faultAxis_keepsPlace x).trans (State.report_keepsPlace _ _ (by decide))

theorem State.readyLimitEnds_keepsPlace (s : State) (x : Axis) : KeepsPlace s (s.readyLimitEnds x) := by
  unfold State.readyLimitEnds
  split
  · exact s.driveFault_keepsPlace x
  · exact .refl s

theorem State.releaseEnds_keepsPlace (s : State) (x : Axis) : KeepsPlace s (s.releaseEnds x) := by
  unfold State.releaseEnds
  split
  · exact s.releaseExpired_keepsPlace x
  · exact .refl s

theorem State.holdEnds_keepsPlace (s : State) (x : Axis) : KeepsPlace s (s.holdEnds x) := by
  unfold State.holdEnds
  split
  · exact s.holdExpired_keepsPlace x
  · exact .refl s

theorem State.setEnds_keepsPlace (s : State) (x : Axis) : KeepsPlace s (s.setEnds x) := by
  unfold State.setEnds
  split
  · exact (KeepsPlace.ofSetAxis s x _).trans (State.takeAtOff_keepsPlace _ x)
  · exact .refl s

theorem State.readyInactive_keepsPlace (s : State) (x : Axis) : KeepsPlace s (s.readyInactive x) := by
  unfold State.readyInactive
  split
  · simp only
    split
    · exact (KeepsPlace.ofSetAxis s x _).trans (State.driveFault_keepsPlace _ x)
    · exact .ofSetAxis s x _
  · exact .refl s

theorem State.chainOpened_keepsPlace (s : State) : KeepsPlace s s.chainOpened :=
  ((s.faultAxis_keepsPlace .rake).trans (State.faultAxis_keepsPlace _ .slew)).trans
    (State.report_keepsPlace _ _ (by decide))

theorem State.chainOpens_keepsPlace (s : State) : KeepsPlace s s.chainOpens := by
  have opened : KeepsPlace s { s with chainOpen := true } := .beside rfl rfl rfl rfl
  unfold State.chainOpens
  split
  · exact .refl s
  · exact opened.trans (State.chainOpened_keepsPlace _)

/-! ## The profile tick -/

theorem State.postMotion_keepsPlace (s : State) (x : Axis) (t : TurnReport) : KeepsPlace s (s.postMotion x t) := by
  have taken : KeepsPlace s (if t.stopEnd then s.takeAtStopEnd x else s) := by
    split
    · exact s.takeAtStopEnd_keepsPlace x
    · exact .refl s
  have ended (u : State) : KeepsPlace u (u.zeroHold x) := by
    unfold State.zeroHold
    split
    · exact u.holdExpired_keepsPlace x
    · exact .refl u
  unfold State.postMotion
  simp only
  split
  · exact taken.trans (ended _)
  · exact taken

theorem State.zeroVelocity_keepsPlace (s : State) (x : Axis) : KeepsPlace s (s.zeroVelocity x) := by
  unfold State.zeroVelocity
  split
  · exact (KeepsPlace.ofSetAxis s x _).trans (State.request_keepsPlace _ x _)
  · exact (KeepsPlace.ofSetAxis s x _).trans (State.request_keepsPlace _ x _)
  · exact .refl s

theorem State.arrived_keepsPlace (s : State) (x : Axis) (q : Option Requester) : KeepsPlace s (s.arrived x q) := by
  unfold State.arrived
  split
  · exact s.seqArrived_keepsPlace x
  · split
    · split
      · exact .beside rfl rfl rfl rfl
      · exact .refl s
    · exact .refl s
  · exact .refl s
  · exact .refl s

theorem State.deliver_keepsPlace (s : State) (x : Axis) (t : TurnReport) : KeepsPlace s (s.deliver x t) := by
  have told : KeepsPlace s
      (if t.zeroVelocity = some .positionUnit then (s.arrived x t.arrival).zeroVelocity x else s.arrived x t.arrival) := by
    split
    · exact (s.arrived_keepsPlace x _).trans (State.zeroVelocity_keepsPlace _ x)
    · exact s.arrived_keepsPlace x _
  unfold State.deliver
  simp only
  split
  · exact told.trans (State.stopEnded_tells _ x).keepsPlace
  · exact told

theorem State.reportTurn_keepsPlace (s : State) (x : Axis) (t : TurnReport) : KeepsPlace s (s.reportTurn x t) := by
  unfold State.reportTurn
  simp only
  split <;> split
  · exact (s.report_keepsPlace _ (by decide)).trans (State.report_keepsPlace _ _ (by decide))
  · exact s.report_keepsPlace _ (by decide)
  · exact s.report_keepsPlace _ (by decide)
  · exact .refl s

theorem State.profileTick_keepsPlace (s : State) : KeepsPlace s s.profileTick := by
  have turned : KeepsPlace s s.turned := .beside rfl rfl rfl rfl
  have judged : KeepsPlace s.turned (s.turned.zoneTick s) := by
    let rowed : State := { s.turned with zones := { s.turned.zones with rows := s.turned.zones.rows.map s.turned.tickRow } }
    have only : ZonesOnly rowed (s.turned.zoneTick s) := rowed.select_zonesOnly.trans (State.judged_zonesOnly _ s)
    exact (KeepsPlace.beside (s := s.turned) (t := rowed) rfl rfl rfl rfl).trans only.keepsPlace
  rw [State.profileTick_eq]
  exact ((((((turned.trans judged).trans (State.reportTurn_keepsPlace _ _ _)).trans (State.reportTurn_keepsPlace _ _ _)).trans
    (State.postMotion_keepsPlace _ _ _)).trans (State.postMotion_keepsPlace _ _ _)).trans
    (State.deliver_keepsPlace _ _ _)).trans (State.deliver_keepsPlace _ _ _)

/-! ## The zone guard, the timers and the STOP line -/

theorem State.zoneWaitEnds_keepsPlace (s : State) : KeepsPlace s s.zoneWaitEnds := by
  unfold State.zoneWaitEnds State.zoneWaitExpired
  split
  · split
    · exact .refl s
    · refine KeepsPlace.trans (t := { s with zones := { s.zones with waitElapsed := 0 } }) ?_
        (State.report_keepsPlace _ _ (by decide))
      exact .beside rfl rfl rfl rfl
  · exact .refl s

theorem State.stepTimeEnds_keepsPlace (s : State) : KeepsPlace s s.stepTimeEnds := by
  have elapsed : KeepsPlace s { s with seq := { s.seq with stepElapsed := s.stepLimitMs } } :=
    .ofSeqPeers s s.peers fun i => i.of_same rfl rfl rfl
  unfold State.stepTimeEnds
  split
  · exact elapsed.trans (State.report_keepsPlace _ _ (by decide))
  · exact .refl s

theorem State.lineAsserts_keepsPlace (s : State) : KeepsPlace s s.lineAsserts := by
  have asserted : KeepsPlace s { s with fault := { s.fault with lineAsserted := true } } := .beside rfl rfl rfl rfl
  unfold State.lineAsserts
  split
  · exact .refl s
  · simp only
    split
    · exact asserted.trans (State.lineReactions_react _).keepsPlace
    · exact asserted

theorem State.lineReleases_keepsPlace (s : State) : KeepsPlace s s.lineReleases := by
  unfold State.lineReleases
  split
  · exact .refl s
  · exact .beside rfl rfl rfl rfl

theorem State.silenceEnds_keepsPlace (s : State) : KeepsPlace s s.silenceEnds := by
  have reported : KeepsPlace s { s with bus := { s.bus with silence := .reported } } := .beside rfl rfl rfl rfl
  unfold State.silenceEnds
  split
  · exact reported.trans (State.report_keepsPlace _ _ (by decide))
  · exact .refl s
  · exact .refl s

/-! ## Status frames, ages and the enable -/

theorem State.zoneArrival_keepsPlace (s : State) (n : Nat) : KeepsPlace s (s.zoneArrival n) := by
  refine KeepsPlace.trans ?_ (s.zoneArrival_zonesOnly n).keepsPlace
  rcases s.reportConflicts_cases n s.zones.rows with same | ⟨reacts, -⟩
  · rw [same]; exact .refl s
  · exact reacts.keepsPlace

theorem State.statusArrival_keepsPlace (s : State) (n : Nat) (p : StatusPayload) : KeepsPlace s (s.statusArrival n p) := by
  have heard : KeepsPlace s { s with peers := modPeer n (PeerRecord.hear (peerStatusOf p)) s.peers } :=
    .beside rfl rfl rfl rfl
  unfold State.statusArrival
  split
  · exact .refl s
  · simp only
    split <;> split
    · exact (heard.trans (State.zoneArrival_keepsPlace _ n)).trans (State.seqArrival_keepsPlace _ n)
    · exact heard.trans (State.seqArrival_keepsPlace _ n)
    · exact heard.trans (State.zoneArrival_keepsPlace _ n)
    · exact heard

theorem State.peerToStale_keepsPlace (s : State) (n : Nat) : KeepsPlace s (s.peerToStale n) := by
  have aged : KeepsPlace s { s with peers := modPeer n PeerRecord.toStale s.peers } := .beside rfl rfl rfl rfl
  unfold State.peerToStale
  split
  · simp only
    split
    · exact aged.trans (State.zoneFreshness_zonesOnly _ n true).keepsPlace
    · exact aged
  · exact .refl s

theorem State.peerToLost_keepsPlace (s : State) (n : Nat) : KeepsPlace s (s.peerToLost n) := by
  have aged : KeepsPlace s (({ s with peers := modPeer n PeerRecord.toLost s.peers } : State).raiseNotice .peerLost) :=
    .beside rfl rfl rfl rfl
  unfold State.peerToLost
  split
  · simp only
    split
    · exact aged.trans (State.zoneFreshness_zonesOnly _ n false).keepsPlace
    · exact aged
  · exact .refl s

theorem State.enableTaken_keepsPlace (s : State) (snd : Sender) (targets : BitVec 32) :
    KeepsPlace s (s.enableTaken snd targets) := by
  have present : KeepsPlace s { s with mon := { s.mon with present := true, timer := some Config.enableTime } } :=
    .beside rfl rfl rfl rfl
  unfold State.enableTaken
  split
  · simp only
    split
    · exact present
    · exact present.trans (State.resume_keepsPlace _)
  · exact .refl s

theorem State.enableEnds_keepsPlace (s : State) : KeepsPlace s s.enableEnds := by
  have absent : KeepsPlace s { s with mon := { s.mon with present := false, timer := none } } := .beside rfl rfl rfl rfl
  unfold State.enableEnds State.endRunStopping
  split
  · refine (absent.trans ?_).trans (State.pause_keepsPlace _)
    split
    · exact .refl _
    · exact (State.endRun_keepsPlace _).trans (State.stopAxis_keepsPlace _ _ _)
  · exact .refl s

/-! ## A frame received -/

/-- A frame received keeps the law when its hand-off does. No frame is handed on in START (R166). -/
theorem State.receive_keepsIndex (s : State) (frame : List Byte) (wf : Bool) (snd : Sender) {f : State → State}
    (h : ∀ t, KeepsIndex t (f t)) : KeepsIndex s (s.receive frame wf snd f) := by
  intro ok
  have heard : (s.heard frame).stepIndexOk := (KeepsPlace.beside rfl rfl rfl rfl).keeps ok
  cases wf
  · exact (State.discard_keepsPlace _).keeps heard
  · show (State.sortFrame (s.heard frame) snd f).stepIndexOk
    unfold State.sortFrame
    split
    · next examined =>
      have mode : (s.heard frame).comm.mode ≠ .start := fun e => by simp [State.examines, e] at examined
      have checked := (State.checkDuplicate_keepsPlace mode snd).keeps heard
      simp only
      split
      · exact checked
      · exact h _ checked
    · exact heard

theorem State.receiveCommand_keepsIndex (s : State) (kind : Byte) (h : CommandHead) (args : List Byte) (defined : Bool)
    {owner : State → State × CmdOutcome} (k : ∀ t, KeepsIndex t (owner t).1) :
    KeepsIndex s (s.receiveCommand kind h args defined owner) := by
  refine State.receive_keepsIndex s _ _ _ fun t ok => ?_
  unfold State.command
  split
  · refine (State.giveOutcome_keepsPlace _ _ _ _).keeps ?_
    split
    · exact ok
    · exact k t ok
  · exact ok

/-! ## Commands -/

/-- R121: the slot that a CONVERT finds counts a step, as every slot that stands does. -/
theorem State.findLayout_counts {s : State} (ok : s.stepIndexOk) (mode : s.comm.mode ≠ .start) {layout slot count : Nat}
    (found : s.findLayout layout = some (slot, count)) : 0 < count := by
  rw [State.stepIndexOk_iff] at ok
  unfold State.findLayout at found
  split at found
  · obtain ⟨i, index, header⟩ := Option.bind_eq_some_iff.mp found
    obtain ⟨h, held, pair⟩ := Option.map_eq_some_iff.mp header
    obtain ⟨sl, slot, own⟩ := Option.bind_eq_some_iff.mp held
    cases pair
    obtain ⟨lt, holds, -⟩ := List.findIdx?_eq_some_iff_getElem.mp index
    cases (List.getElem?_eq_getElem lt).symm.trans slot
    refine ok.2.1 mode _ (List.getElem_mem lt) h own ?_
    simp only [Slot.holds, Bool.and_eq_true, Bool.or_eq_true, decide_eq_true_eq, Bool.not_eq_true'] at holds
    obtain ⟨⟨held, good⟩, -⟩ := holds
    rcases held with e | e <;> simp [Slot.state, good, e]
  · cases found

theorem State.ownConvert_keepsIndex (s : State) (h : CommandHead) (layout : Byte) (delay : BitVec 16) :
    KeepsIndex s (s.ownConvert h layout delay).1 := by
  intro ok
  unfold State.ownConvert
  split
  · exact ok
  · next slot count judged =>
    have counted : 0 < count := by
      unfold State.judgeConvert at judged
      repeat' split at judged
      all_goals cases judged
      rename_i mode _ _ _ _ _ _ found _
      exact State.findLayout_counts ok (fun start => mode (by rw [start]; decide)) found
    have armed : KeepsPlace s (s.arm layout.toNat slot count h.sender.station.toNat h.tag.toNat delay.toNat) :=
      ⟨id, rfl, rfl, fun _ _ => counted⟩
    exact armed.keeps ok

theorem State.ownCancel_keepsPlace (s : State) : KeepsPlace s s.ownCancel.1 := by
  unfold State.ownCancel
  split
  · exact s.seqToIdle_keepsPlace
  · exact s.stopRequested_keepsPlace.trans (State.seqToAborted_keepsPlace _)
  · exact s.stopRequested_keepsPlace.trans (State.seqToAborted_keepsPlace _)
  all_goals exact .refl s

theorem KeepsPlace.ofMon (s : State) (m : EnableMonitor) : KeepsPlace s { s with mon := m } := .beside rfl rfl rfl rfl

theorem State.ownJog_keepsPlace (s : State) (x : Axis) (d : Dir) (v : Nat) : KeepsPlace s (s.ownJog x d v).1 := by
  unfold State.ownJog State.startJog
  split
  · exact .refl s
  · split
    · exact .refl s
    · exact (KeepsPlace.ofMon s _).trans (State.request_keepsPlace _ x _)

theorem State.ownHome_keepsPlace (s : State) (x : Axis) : KeepsPlace s (s.ownHome x).1 := by
  unfold State.ownHome State.startHome
  split
  · exact .refl s
  · exact (((s.setReferenced_keepsPlace x false).trans (.ofSetAxis _ x _)).trans (.ofMon _ _)).trans
      (State.request_keepsPlace _ x _)

theorem State.ownJogEnd_keepsPlace (s : State) (x : Axis) : KeepsPlace s (s.ownJogEnd x).1 := by
  unfold State.ownJogEnd
  split
  · exact (KeepsPlace.ofMon s _).trans (State.stopAxis_keepsPlace _ x _)
  · exact .refl s

theorem State.ownClearFault_keepsPlace (s : State) : KeepsPlace s s.ownClearFault.1 := by
  have cleared : KeepsPlace s s.clearFaults := .beside rfl rfl rfl rfl
  unfold State.ownClearFault
  split
  · exact .refl s
  · split
    · exact cleared
    · exact .refl s

theorem State.rxConvert_keepsIndex (s : State) (h : CommandHead) (layout : Byte) (delay : BitVec 16) :
    KeepsIndex s (s.rxConvert h layout delay) :=
  s.receiveCommand_keepsIndex _ _ _ _ fun t => t.ownConvert_keepsIndex h layout delay

theorem State.rxCancel_keepsIndex (s : State) (h : CommandHead) : KeepsIndex s (s.rxCancel h) :=
  s.receiveCommand_keepsIndex _ _ _ _ fun t => t.ownCancel_keepsPlace.keeps

theorem State.rxHome_keepsIndex (s : State) (h : CommandHead) (axis : Byte) : KeepsIndex s (s.rxHome h axis) := by
  refine s.receiveCommand_keepsIndex _ _ _ _ fun t => ?_
  split
  · exact (t.ownHome_keepsPlace _).keeps
  · exact id

theorem State.rxJog_keepsIndex (s : State) (h : CommandHead) (axis dir : Byte) (speed : BitVec 24) :
    KeepsIndex s (s.rxJog h axis dir speed) := by
  refine s.receiveCommand_keepsIndex _ _ _ _ fun t => ?_
  split
  · exact (t.ownJog_keepsPlace _ _ _).keeps
  · exact id

theorem State.rxJogEnd_keepsIndex (s : State) (h : CommandHead) (axis : Byte) : KeepsIndex s (s.rxJogEnd h axis) := by
  refine s.receiveCommand_keepsIndex _ _ _ _ fun t => ?_
  split
  · exact (t.ownJogEnd_keepsPlace _).keeps
  · exact id

theorem State.rxClearFault_keepsIndex (s : State) (h : CommandHead) : KeepsIndex s (s.rxClearFault h) :=
  s.receiveCommand_keepsIndex _ _ _ _ fun t => t.ownClearFault_keepsPlace.keeps

theorem State.rxStatus_keepsIndex (s : State) (snd : Sender) (p : StatusPayload) : KeepsIndex s (s.rxStatus snd p) :=
  s.receive_keepsIndex _ _ _ fun t => (t.statusArrival_keepsPlace _ p).keeps

theorem State.rxStop_keepsIndex (s : State) (snd : Sender) : KeepsIndex s (s.rxStop snd) :=
  s.receive_keepsIndex _ _ _ fun t => (t.reactions_react .controlled none).keepsPlace.keeps

theorem State.rxEnable_keepsIndex (s : State) (snd : Sender) (targets : BitVec 32) : KeepsIndex s (s.rxEnable snd targets) :=
  s.receive_keepsIndex _ _ _ fun t => (t.enableTaken_keepsPlace snd targets).keeps

theorem State.rxReply_keepsIndex (s : State) (snd : Sender) (q k n o : Byte) (data : List Byte) :
    KeepsIndex s (s.rxReply snd q k n o data) := s.receive_keepsIndex _ _ _ fun _ => id

/-! ## Service requests (R179 to R188) -/

theorem State.handReply_keepsPlace (s : State) (n : Nat) (o : SvcOutcome) (data : List Byte) :
    KeepsPlace s (s.handReply n o data) := by
  unfold State.handReply
  split
  · exact .beside rfl rfl rfl rfl
  · exact .refl s
  · exact .refl s

/-- An answer begins no operation but one that counts. -/
def Answer.counts (slots : List Slot) : Answer → Prop
  | .reply _ _ => True
  | .job op _ => op.counts slots

theorem State.answer_keepsIndex {s : State} (n : Nat) {a : Answer} (h : a.counts s.nv.slots) : KeepsIndex s (s.answer n a) := by
  cases a with
  | reply o data => exact (s.handReply_keepsPlace n o data).keeps
  | job op time =>
    intro ok
    rw [State.stepIndexOk_iff] at ok ⊢
    refine ⟨ok.1, ok.2.1, fun j job => ?_⟩
    cases job
    exact h

/-- A request keeps the law when its owner does, and answers with no operation but one that counts. -/
def OwnerCounts (owner : State → State × Answer) : Prop :=
  ∀ t : State, t.stepIndexOk → (owner t).1.stepIndexOk ∧ (owner t).2.counts (owner t).1.nv.slots

theorem State.receiveRequest_keepsIndex (s : State) (kind : Byte) (r : ServiceReq) {owner : State → State × Answer}
    (h : OwnerCounts owner) : KeepsIndex s (s.receiveRequest kind r owner) := by
  refine State.receive_keepsIndex s _ _ _ fun t ok => ?_
  unfold State.service
  split
  · split
    · exact ok
    · next n _ =>
      let taken : State := { t with
        comm := { t.comm with jumper := r.jumper, strapLevel := r.straps }
        bus := t.bus.setPlace n (.reserved { requester := r.sender.station, kind := kind, tag := r.tag }) }
      have took : taken.stepIndexOk := (KeepsPlace.beside rfl rfl rfl rfl).keeps ok
      simp only
      split
      · exact (State.handReply_keepsPlace _ _ _ _).keeps took
      · obtain ⟨owned, counted⟩ := h taken took
        exact State.answer_keepsIndex n counted owned
  · exact ok

/-- A request answered at once from the state as it stands. -/
theorem OwnerCounts.reads {owner : State → State × Answer} (same : ∀ t, (owner t).1 = t)
    (replies : ∀ t, (owner t).2.counts t.nv.slots) : OwnerCounts owner := by
  intro t ok
  rw [same]
  exact ⟨ok, replies t⟩

theorem State.ownReadPeers_counts (s : State) (args : List Byte) : (s.ownReadPeers args).2.counts s.nv.slots := by
  unfold State.ownReadPeers State.peersAnswer
  split
  · simp only
    split
    · trivial
    · split
      · trivial
      · split <;> trivial
  · trivial

theorem State.ownReadCapture_counts (s : State) (args : List Byte) : (s.ownReadCapture args).2.counts s.nv.slots := by
  unfold State.ownReadCapture
  split
  · split <;> trivial
  · trivial

theorem State.ownReadSlot_counts (s : State) (args : List Byte) : (s.ownReadSlot args).2.counts s.nv.slots := by
  unfold State.ownReadSlot
  split
  · split
    · trivial
    · split <;> trivial
  · trivial

/-- A store request: judged past its gate, and turned away at it. -/
theorem OwnerCounts.gated {gate : State → Option SvcOutcome} {judge : State → Answer}
    (h : ∀ t, t.stepIndexOk → gate t = none → (judge t).counts t.nv.slots) :
    OwnerCounts fun t => (t, Machine.gated (gate t) (judge t)) := by
  refine fun t ok => ⟨ok, ?_⟩
  show (Machine.gated (gate t) (judge t)).counts t.nv.slots
  unfold Machine.gated
  split
  · trivial
  · next open_ => exact h t ok open_

theorem State.enterCommission_keepsPlace {s : State} (mode : s.comm.mode ≠ .start) : KeepsPlace s s.enterCommission := by
  refine KeepsPlace.trans ?_ ((State.announce_zonesOnly _ s).keepsPlace)
  exact ⟨fun e => absurd e mode, rfl, rfl, id⟩

theorem ownCommissionEnter_counts : OwnerCounts State.ownCommissionEnter := by
  intro t ok
  have entered (mode : t.comm.mode ≠ .start) := (State.enterCommission_keepsPlace mode).keeps ok
  unfold State.ownCommissionEnter
  split
  · exact ⟨ok, trivial⟩
  · split
    · exact ⟨ok, trivial⟩
    · next mode => exact ⟨entered (by rw [mode]; decide), trivial⟩
    · next mode =>
      split
      · exact ⟨entered (by rw [mode]; decide), trivial⟩
      · exact ⟨ok, trivial⟩
    · exact ⟨ok, trivial⟩
    · exact ⟨ok, trivial⟩

theorem State.setRestart_keepsPlace (s : State) : KeepsPlace s s.setRestart := .beside rfl rfl rfl rfl

theorem ownCommissionExit_counts : OwnerCounts State.ownCommissionExit := by
  intro t ok
  unfold State.ownCommissionExit
  split
  · exact ⟨ok, trivial⟩
  · split
    · exact ⟨t.setRestart_keepsPlace.keeps ok, trivial⟩
    · exact ⟨ok, trivial⟩

theorem ownRestart_counts : OwnerCounts State.ownRestart := by
  intro t ok
  unfold State.ownRestart
  split
  · exact ⟨t.setRestart_keepsPlace.keeps ok, trivial⟩
  · exact ⟨ok, trivial⟩

theorem ownWriteEnable_counts : OwnerCounts State.ownWriteEnable := by
  intro t ok
  have latched : KeepsPlace t { t with store := { t.store with latch := true } } := .beside rfl rfl rfl rfl
  unfold State.ownWriteEnable
  split
  · exact ⟨ok, trivial⟩
  · exact ⟨latched.keeps ok, trivial⟩

theorem ownConfigWrite_counts (args : List Byte) : OwnerCounts (State.ownConfigWrite · args) := by
  intro t ok
  have written (w : Option (List Byte)) : KeepsPlace t { t with comm := { t.comm with working := w } } :=
    .beside rfl rfl rfl rfl
  simp only [State.ownConfigWrite]
  split
  · exact ⟨ok, trivial⟩
  · split
    · exact ⟨ok, trivial⟩
    · split
      · exact ⟨ok, trivial⟩
      · exact ⟨(written _).keeps ok, trivial⟩

/-- R183: a request that passes the gate of the latch finds COMMISSION. -/
theorem State.latchGate_commission {s : State} (h : s.latchGate = none) : s.comm.mode = .commission := by
  unfold State.latchGate State.writeGate at h
  by_contra mode
  simp [mode] at h

theorem State.judgeErase_counts (s : State) (args : List Byte) : (s.judgeErase args).counts s.nv.slots := by
  unfold State.judgeErase
  split
  · split
    · trivial
    · split <;> trivial
  · trivial

theorem State.judgeProgram_counts (s : State) (args : List Byte) : (s.judgeProgram args).counts s.nv.slots := by
  unfold State.judgeProgram
  split
  · split
    · split
      · trivial
      · split
        · trivial
        · trivial
        · trivial
        · split <;> trivial
        · split <;> trivial
    · trivial
  · trivial

theorem State.judgeCommit_counts (s : State) (args : List Byte) : (s.judgeCommit args).counts s.nv.slots := by
  unfold State.judgeCommit
  simp only
  split
  · trivial
  · split <;> trivial

/-- R185: a FINALIZE_SLOT that begins has a count from 1. -/
theorem State.judgeFinalize_counts (s : State) (args : List Byte) : (s.judgeFinalize args).counts s.nv.slots := by
  unfold State.judgeFinalize
  split
  · split
    · trivial
    · split
      · trivial
      · next lay cnt _ _ _ _ _ _ range =>
        have least : 1 ≤ cnt.toNat := by omega
        split
        · trivial
        · trivial
        · trivial
        · exact least
        · exact least
  · trivial

/-- R185: a LOCK_SLOT begins on a slot that stands PROGRAMMED. -/
theorem State.judgeLock_counts {s : State} (ok : s.stepIndexOk) (mode : s.comm.mode ≠ .start) (args : List Byte) :
    (s.judgeLock args).counts s.nv.slots := by
  rw [State.stepIndexOk_iff] at ok
  unfold State.judgeLock
  split
  · next b =>
    split
    · trivial
    · next n sl named =>
      have found : s.nv.slots[n - 1]? = some sl := by
        obtain ⟨k, -, there⟩ := Option.bind_eq_some_iff.mp named
        obtain ⟨own, slot, pair⟩ := Option.map_eq_some_iff.mp there
        cases pair
        unfold State.slot at slot
        split at slot
        · cases slot
        · exact slot
      split
      · next programmed =>
        intro held there h header
        cases found.symm.trans there
        exact ok.2.1 mode sl (List.mem_of_getElem? found) h header (.inl programmed)
      all_goals trivial
  · trivial

theorem State.rxByKind_keepsIndex (s : State) (kind : Byte) (r : ServiceReq) : KeepsIndex s (s.rxByKind kind r) := by
  unfold State.rxByKind
  split
  · refine s.receiveRequest_keepsIndex _ r (.reads (fun _ => rfl) fun t => ?_)
    unfold State.ownIdentify
    simp only
    split <;> trivial
  · exact s.receiveRequest_keepsIndex _ r (.reads (fun _ => rfl) fun _ => trivial)
  · exact s.receiveRequest_keepsIndex _ r (.reads (State.ownReadPeers_state · _) (State.ownReadPeers_counts · _))
  · exact s.receiveRequest_keepsIndex _ r (.reads (State.ownReadCapture_state · _) (State.ownReadCapture_counts · _))
  · exact s.receiveRequest_keepsIndex _ r (.reads (State.ownReadSlot_state · _) (State.ownReadSlot_counts · _))
  · exact s.receiveRequest_keepsIndex _ r ownCommissionEnter_counts
  · exact s.receiveRequest_keepsIndex _ r ownCommissionExit_counts
  · exact s.receiveRequest_keepsIndex _ r ownWriteEnable_counts
  · exact s.receiveRequest_keepsIndex _ r (.gated fun t _ _ => t.judgeErase_counts _)
  · exact s.receiveRequest_keepsIndex _ r (.gated fun t _ _ => t.judgeProgram_counts _)
  · exact s.receiveRequest_keepsIndex _ r (.gated fun t _ _ => t.judgeFinalize_counts _)
  · refine s.receiveRequest_keepsIndex _ r (.gated fun t ok open_ => State.judgeLock_counts ok ?_ _)
    rw [State.latchGate_commission open_]
    decide
  · exact s.receiveRequest_keepsIndex _ r (ownConfigWrite_counts _)
  · exact s.receiveRequest_keepsIndex _ r (.gated fun t _ _ => t.judgeCommit_counts _)
  · exact s.receiveRequest_keepsIndex _ r ownRestart_counts
  · exact s.receiveRequest_keepsIndex _ r (.reads (fun _ => rfl) fun _ => trivial)

/-! ## Completions of the store (R182 to R185) -/

/-- A completion that writes no slot. -/
theorem State.finishJob_keepsIndex (s : State) (place : Nat) (o : SvcOutcome) : KeepsIndex s (s.finishJob place o) := by
  intro ok
  refine (State.handReply_keepsPlace _ _ _ _).keeps ?_
  rw [State.stepIndexOk_iff] at ok ⊢
  exact ⟨ok.1, ok.2.1, nofun⟩

/-- A completion that writes a slot which, where it stands after, counts a step. -/
theorem State.modSlot_keepsIndex {s : State} {n : Nat} {f : Slot → Slot}
    (h : ∀ sl, s.nv.slots[n - 1]? = some sl → (f sl).counts) (place : Nat) (o : SvcOutcome) :
    KeepsIndex s ((s.modSlot n f).finishJob place o) := by
  intro ok
  refine (State.handReply_keepsPlace _ _ _ _).keeps ?_
  rw [State.stepIndexOk_iff] at ok ⊢
  refine ⟨ok.1, fun mode sl mem => ?_, nofun⟩
  obtain ⟨i, row⟩ := List.mem_iff_getElem?.mp mem
  have row : (s.nv.slots.modify (n - 1) f)[i]? = some sl := row
  rw [List.getElem?_modify] at row
  obtain ⟨own, there, e⟩ := Option.map_eq_some_iff.mp row
  split at e
  · next same => exact e ▸ h own (same ▸ there)
  · exact e ▸ ok.2.1 mode own (List.mem_of_getElem? there)

theorem State.eraseEnds_keepsIndex (s : State) : KeepsIndex s s.eraseEnds := by
  unfold State.eraseEnds
  split
  · refine State.modSlot_keepsIndex (fun _ _ h header _ => ?_) _ _
    cases header
  · exact id

theorem State.programEnds_keepsIndex (s : State) : KeepsIndex s s.programEnds := by
  unfold State.programEnds
  split
  · refine State.modSlot_keepsIndex (fun sl _ h _ stands => ?_) _ _
    unfold Slot.state at stands
    split at stands <;> simp at stands
  · exact id

theorem State.finalizeEnds_keepsIndex (s : State) : KeepsIndex s s.finalizeEnds := by
  intro ok
  have jobs := ((State.stepIndexOk_iff s).mp ok).2.2
  unfold State.finalizeEnds
  split
  · next job =>
    split
    · exact s.finishJob_keepsIndex _ _ ok
    · split
      · exact s.finishJob_keepsIndex _ _ ok
      · refine State.modSlot_keepsIndex (fun sl _ h header _ => ?_) _ _ ok
        cases header
        exact jobs _ job
  · exact ok

theorem State.lockEnds_keepsIndex (s : State) : KeepsIndex s s.lockEnds := by
  intro ok
  have jobs := ((State.stepIndexOk_iff s).mp ok).2.2
  unfold State.lockEnds
  split
  · next job =>
    refine State.modSlot_keepsIndex (fun sl there h header _ => ?_) _ _ ok
    exact jobs _ job sl there h header
  · exact ok

theorem State.commitEnds_keepsIndex (s : State) : KeepsIndex s s.commitEnds := by
  unfold State.commitEnds
  split
  · refine fun ok => State.finishJob_keepsIndex _ _ _ ?_
    rw [State.stepIndexOk_iff] at ok ⊢
    exact ok
  · exact id

/-! ## The transmitter and the line -/

theorem KeepsPlace.ofBus (s : State) (b : Bus) : KeepsPlace s { s with bus := b } := .beside rfl rfl rfl rfl

theorem State.startTransmit_keepsPlace (s : State) : KeepsPlace s s.startTransmit := by
  unfold State.startTransmit
  split
  · split
    · exact .ofBus s _
    · exact .refl s
  · exact .refl s

theorem State.completeFrame_keepsPlace (s : State) : KeepsPlace s s.completeFrame := by
  unfold State.completeFrame
  split
  · exact .refl s
  · exact .beside rfl rfl rfl rfl

theorem State.dueTime_keepsPlace (s : State) : KeepsPlace s s.dueTime := by
  unfold State.dueTime
  split
  · exact .ofBus s _
  · exact .refl s

/-- A frame that passed its checks keeps the law, whatever its row. -/
theorem State.runFrame_keepsIndex (s : State) (i : Instr) : KeepsIndex s (s.runFrame i) := by
  unfold State.runFrame
  split
  · exact s.rxStatus_keepsIndex _ _
  · exact s.rxStop_keepsIndex _
  · exact s.rxEnable_keepsIndex _ _
  · exact s.rxConvert_keepsIndex _ _ _
  · exact s.rxCancel_keepsIndex _
  · exact s.rxHome_keepsIndex _ _
  · exact s.rxJog_keepsIndex _ _ _ _
  · exact s.rxJogEnd_keepsIndex _ _
  · exact s.rxClearFault_keepsIndex _
  · exact s.rxReply_keepsIndex _ _ _ _ _ _
  · exact s.rxByKind_keepsIndex 1 _
  · exact s.rxByKind_keepsIndex 2 _
  · exact s.rxByKind_keepsIndex 3 _
  · exact s.rxByKind_keepsIndex 4 _
  · exact s.rxByKind_keepsIndex 5 _
  · exact s.rxByKind_keepsIndex 6 _
  · exact s.rxByKind_keepsIndex 7 _
  · exact s.rxByKind_keepsIndex 15 _
  · exact s.rxByKind_keepsIndex 8 _
  · exact s.rxByKind_keepsIndex 9 _
  · exact s.rxByKind_keepsIndex 10 _
  · exact s.rxByKind_keepsIndex 11 _
  · exact s.rxByKind_keepsIndex 12 _
  · exact s.rxByKind_keepsIndex 13 _
  · exact s.rxByKind_keepsIndex 14 _
  · exact s.rxByKind_keepsIndex _ _
  · exact id

theorem State.takeReport_keepsIndex (s : State) (r : RxReport) : KeepsIndex s (s.takeReport r) := by
  cases r with
  | none => exact id
  | discard => exact s.discard_keepsPlace.keeps
  | frame chars =>
    intro ok
    refine (KeepsPlace.ofBus (s.judgeFrame chars) _).keeps ?_
    unfold State.judgeFrame
    split
    · exact s.runFrame_keepsIndex _ ok
    · exact s.discard_keepsPlace.keeps ok

theorem State.lineEvent_keepsIndex (s : State) (e : LineEvent) : KeepsIndex s (s.lineEvent e) := by
  have compared (level : Bool) : KeepsPlace s (s.compareBit level) := by
    unfold State.compareBit
    split
    · exact .refl s
    · next src _ _ _ =>
      split
      · exact .ofBus s _
      · cases src <;> exact .beside rfl rfl rfl rfl
  have readBack : KeepsPlace s (s.readBack e) := by
    cases e with
    | edge _ => exact .refl s
    | sample level => exact compared level
    | recessive n =>
      simp only [State.readBack]
      split
      · exact compared true
      · exact .refl s
  have sent (t : State) : KeepsPlace t t.checkSent := by
    unfold State.checkSent
    split
    · exact .refl t
    · split
      · exact .beside rfl rfl rfl rfl
      · exact .refl t
  intro ok
  exact (sent _).keeps (State.takeReport_keepsIndex _ _ ((readBack.trans (.ofBus _ _)).keeps ok))

theorem State.lineEvents_keepsIndex (s : State) (es : List LineEvent) : KeepsIndex s (s.lineEvents es) := by
  induction es generalizing s with
  | nil => exact id
  | cons e es ih => exact fun ok => ih _ (s.lineEvent_keepsIndex e ok)

theorem State.withdrawAt_keepsIndex (s : State) (bit : Nat) : KeepsIndex s (s.withdrawAt bit) := by
  unfold State.withdrawAt
  split
  · exact id
  · split
    · exact id
    · exact fun ok => State.lineEvents_keepsIndex _ _ ((KeepsPlace.ofBus s _).keeps ok)

/-! ## Resets and the end of START -/

/-- A reset drops the script and the operation, and enters START. -/
theorem State.stepIndexOk_reset {s : State} (mode : s.comm.mode = .start) (job : s.store.job = none)
    (seq : s.seq = Sequencer.cold) : s.stepIndexOk := by
  rw [State.stepIndexOk_iff, job, seq]
  exact ⟨Sequencer.indexed_of_atEase rfl, fun h => absurd mode h, nofun⟩

/-- R186: a slot that passed its check in PROGRAMMED or LOCKED counts a step. -/
theorem Slot.checked_counts (sl : Slot) : sl.checked.counts := by
  intro h header stands
  have good : sl.passes = true := by
    cases passes : sl.passes with
    | true => rfl
    | false => simp [Slot.checked, Slot.state, passes] at stands
  have header : sl.header = some h := header
  have held : sl.held = .programmed ∨ sl.held = .locked := by
    cases e : sl.held <;> simp [Slot.checked, Slot.state, good, e] at stands ⊢
  unfold Slot.passes at good
  rcases held with e | e <;> simp [e, header] at good <;> exact good.2.1.1

theorem State.started_keepsIndex (s : State) (level : BitVec 5) : KeepsIndex s (s.started level) := by
  intro ok
  rw [State.stepIndexOk_iff] at ok ⊢
  refine ⟨ok.1, fun _ sl mem => ?_, fun j job => ?_⟩
  · obtain ⟨own, -, rfl⟩ := List.mem_map.mp mem
    exact own.checked_counts
  · have counted := ok.2.2 j job
    cases op : j.op with
    | finalize => rw [op] at counted; exact counted
    | lock n =>
      rw [op] at counted
      intro sl there h header
      have there : (s.nv.slots.map Slot.checked)[n - 1]? = some sl := there
      rw [List.getElem?_map] at there
      obtain ⟨own, found, rfl⟩ := Option.map_eq_some_iff.mp there
      exact counted own found h header
    | _ => trivial

theorem State.startEnds_keepsIndex (s : State) (straps : BitVec 5) : KeepsIndex s (s.startEnds straps) := by
  have judged (t : State) (prior : Option Record) (x : Axis) : KeepsPlace t (t.judgeReference prior x) := by
    unfold State.judgeReference
    split
    · exact .refl t
    · exact t.setReferenced_keepsPlace x false
  have resumed (t : State) (prior : Option Record) : KeepsPlace t (t.resumeAxes prior) :=
    ((judged t prior .slew).trans (judged _ prior .rake)).trans (.beside rfl rfl rfl rfl)
  have read (t : State) : KeepsPlace t t.readChain.readLine := by
    have chain : KeepsPlace t t.readChain := by
      unfold State.readChain
      split
      · exact t.chainOpened_keepsPlace
      · exact .refl t
    refine chain.trans ?_
    unfold State.readLine
    split
    · exact (State.lineReactions_react _).keepsPlace
    · exact .refl _
  unfold State.startEnds
  split
  · refine fun ok => (read _).keeps ?_
    split
    · exact (resumed _ _).keeps (s.started_keepsIndex straps ok)
    · exact s.started_keepsIndex straps ok
  · exact id

theorem State.warmRestart_keepsIndex (s : State) : KeepsIndex s s.warmRestart := by
  unfold State.warmRestart
  split
  · exact fun _ => State.stepIndexOk_reset rfl rfl rfl
  · exact id

/-! ## Every step -/

/-- What reaches a part out of reset keeps the law when its operation does; a part held in reset stays. -/
theorem live_keepsIndex {f : State → State} {s t : State} (h : KeepsIndex s (f s)) (e : live f s = .next t) :
    KeepsIndex s t := by
  unfold live at e
  split at e <;> cases e
  · exact id
  · exact h

theorem exec_keepsIndex {c : Instr} {s t : State} (e : exec c s = .next t) : KeepsIndex s t := by
  unfold exec at e
  cases c with
  | coldReset pins => cases e; exact fun _ => State.stepIndexOk_reset rfl rfl rfl
  | resetTaken => cases e; exact fun _ => State.stepIndexOk_reset rfl rfl rfl
  | startEnd straps => exact live_keepsIndex (s.startEnds_keepsIndex straps) e
  | warmRestart => exact live_keepsIndex s.warmRestart_keepsIndex e
  | profileTick => exact live_keepsIndex s.profileTick_keepsPlace.keeps e
  | encoderTransition x a b => exact live_keepsIndex (s.transition_keepsPlace x a b).keeps e
  | slewIndexMark => exact live_keepsIndex (s.takeMark_keepsPlace .slew).keeps e
  | rakeSwitchClose => exact live_keepsIndex s.switchCloses_keepsPlace.keeps e
  | rakeSwitchOpen => exact live_keepsIndex s.switchOpens_keepsPlace.keeps e
  | endLimitActive x d => exact live_keepsIndex (s.limitActive_keepsPlace x d).keeps e
  | endLimitInactive x d => exact live_keepsIndex (KeepsPlace.ofSetAxis s x _).keeps e
  | driveReadyActive x => exact live_keepsIndex (s.readyActive_keepsPlace x).keeps e
  | readyLimitExpiry x => exact live_keepsIndex (s.readyLimitEnds_keepsPlace x).keeps e
  | brakeReleaseExpiry x => exact live_keepsIndex (s.releaseEnds_keepsPlace x).keeps e
  | holdExpiry x => exact live_keepsIndex (s.holdEnds_keepsPlace x).keeps e
  | brakeSetExpiry x => exact live_keepsIndex (s.setEnds_keepsPlace x).keeps e
  | driveLoss x => exact live_keepsIndex (s.readyInactive_keepsPlace x).keeps e
  | localStopChainOpen => exact live_keepsIndex s.chainOpens_keepsPlace.keeps e
  | localStopChainClose => exact live_keepsIndex (KeepsPlace.beside rfl rfl rfl rfl).keeps e
  | claimWindowExpiry => exact live_keepsIndex s.windowExpired_zonesOnly.keepsPlace.keeps e
  | zoneTimeout => exact live_keepsIndex s.zoneWaitEnds_keepsPlace.keeps e
  | statusFrame snd p => exact live_keepsIndex (s.rxStatus_keepsIndex snd p) e
  | peerStale n => exact live_keepsIndex (s.peerToStale_keepsPlace n.toNat).keeps e
  | peerLost n => exact live_keepsIndex (s.peerToLost_keepsPlace n.toNat).keeps e
  | stopFrame snd => exact live_keepsIndex (s.rxStop_keepsIndex snd) e
  | enableFrame snd targets => exact live_keepsIndex (s.rxEnable_keepsIndex snd targets) e
  | enableExpiry => exact live_keepsIndex s.enableEnds_keepsPlace.keeps e
  | convert head layout delay => exact live_keepsIndex (s.rxConvert_keepsIndex head layout delay) e
  | cancel head => exact live_keepsIndex (s.rxCancel_keepsIndex head) e
  | home head x => exact live_keepsIndex (s.rxHome_keepsIndex head x) e
  | jog head x d v => exact live_keepsIndex (s.rxJog_keepsIndex head x d v) e
  | jogEnd head x => exact live_keepsIndex (s.rxJogEnd_keepsIndex head x) e
  | clearFault head => exact live_keepsIndex (s.rxClearFault_keepsIndex head) e
  | serviceReplyFrame snd q k n o data => exact live_keepsIndex (s.rxReply_keepsIndex snd q k n o data) e
  | frameDiscard line => exact live_keepsIndex (s.lineEvents_keepsIndex line) e
  | identify r => exact live_keepsIndex (s.rxByKind_keepsIndex 1 r) e
  | readFault r => exact live_keepsIndex (s.rxByKind_keepsIndex 2 r) e
  | readPeers r => exact live_keepsIndex (s.rxByKind_keepsIndex 3 r) e
  | readCapture r => exact live_keepsIndex (s.rxByKind_keepsIndex 4 r) e
  | readSlot r => exact live_keepsIndex (s.rxByKind_keepsIndex 5 r) e
  | commissionEnter r => exact live_keepsIndex (s.rxByKind_keepsIndex 6 r) e
  | commissionExit r => exact live_keepsIndex (s.rxByKind_keepsIndex 7 r) e
  | restart r => exact live_keepsIndex (s.rxByKind_keepsIndex 15 r) e
  | writeEnable r => exact live_keepsIndex (s.rxByKind_keepsIndex 8 r) e
  | eraseSlot r => exact live_keepsIndex (s.rxByKind_keepsIndex 9 r) e
  | eraseComplete => exact live_keepsIndex s.eraseEnds_keepsIndex e
  | programSteps r => exact live_keepsIndex (s.rxByKind_keepsIndex 10 r) e
  | programComplete => exact live_keepsIndex s.programEnds_keepsIndex e
  | finalizeSlot r => exact live_keepsIndex (s.rxByKind_keepsIndex 11 r) e
  | finalizeComplete => exact live_keepsIndex s.finalizeEnds_keepsIndex e
  | lockSlot r => exact live_keepsIndex (s.rxByKind_keepsIndex 12 r) e
  | lockComplete => exact live_keepsIndex s.lockEnds_keepsIndex e
  | configWrite r => exact live_keepsIndex (s.rxByKind_keepsIndex 13 r) e
  | configCommit r => exact live_keepsIndex (s.rxByKind_keepsIndex 14 r) e
  | commitComplete => exact live_keepsIndex s.commitEnds_keepsIndex e
  | undefinedServiceReq k r => exact live_keepsIndex (s.rxByKind_keepsIndex k r) e
  | transmitStart => exact live_keepsIndex s.startTransmit_keepsPlace.keeps e
  | withdraw bit => exact live_keepsIndex (s.withdrawAt_keepsIndex bit) e
  | frameComplete => exact live_keepsIndex s.completeFrame_keepsPlace.keeps e
  | statusDue => exact live_keepsIndex s.dueTime_keepsPlace.keeps e
  | busSilent => exact live_keepsIndex s.silenceEnds_keepsPlace.keeps e
  | holdOffExpiry => exact live_keepsIndex s.holdOffExpires_keepsPlace.keeps e
  | stepTimeout => exact live_keepsIndex s.stepTimeEnds_keepsPlace.keeps e
  | dwellEnd => exact live_keepsIndex s.dwellEnds_keepsPlace.keeps e
  | stopLineAsserted => exact live_keepsIndex s.lineAsserts_keepsPlace.keeps e
  | stopLineReleased => exact live_keepsIndex s.lineReleases_keepsPlace.keeps e
  | pwmPeriodStart x => exact live_keepsIndex (KeepsPlace.ofSetAxis s x _).keeps e

theorem State.passMs_keepsIndex (s : State) : KeepsIndex s s.passMs := by
  have rested : KeepsIndex s s.restLine := by
    unfold State.restLine
    split
    · exact id
    · exact s.lineEvent_keepsIndex _
  have passed (t : State) : KeepsIndex t t.passTimers := by
    intro ok
    rw [State.stepIndexOk_iff] at ok ⊢
    refine ⟨ok.1.of_same rfl rfl rfl, ok.2.1, fun j job => ?_⟩
    obtain ⟨own, running, rfl⟩ := Option.map_eq_some_iff.mp job
    exact ok.2.2 own running
  unfold State.passMs
  split
  · exact id
  · exact fun ok => passed _ (rested ok)

/-- Settles O59: a millisecond keeps what carries the law, and so does every command. -/
theorem stepIndexKept : Obligations.StepIndexKept := by
  intro s t ok e
  unfold step at e
  split at e
  · cases e; exact s.passMs_keepsIndex ok
  · next c queue _ => exact exec_keepsIndex e ((KeepsPlace.beside (t := { s with pending := queue }) rfl rfl rfl rfl).keeps ok)

end Sys2Proof.Machine
end

-- ==== Proofs: a frame on the line, and a frame that fails its checks ====
section
/-! SETTLES O7. A frame that another station sends after an idle reaches its checks whole (R153 to R156), and one that fails them is
reported to the sequencer alone (R124). -/

namespace Sys2Proof.Machine

/-! ## A quiet station reads the line (R153 to R155) -/

/-- The state with its receiver replaced. -/
def State.withRx (s : State) (rx : Receiver) : State := { s with bus := { s.bus with rx := rx } }

/-- A station that is not SENDING reads a stretch of the line with no report, its receiver going from `rx` to `after`. -/
def Receiver.Reads (rx : Receiver) (es : List LineEvent) (after : Receiver) : Prop :=
  ∀ s : State, s.bus.tx = .quiet → (s.withRx rx).lineEvents es = s.withRx after

/-- An event met by a quiet station is the receiver's step, and its report taken. -/
theorem State.lineEvent_quiet {s : State} (quiet : s.bus.tx = .quiet) (e : LineEvent) :
    s.lineEvent e = ((s.withRx (s.bus.rx.feed false e).1).takeReport (s.bus.rx.feed false e).2).checkSent := by
  have still : s.bus.tx.drives = false := by rw [quiet]; rfl
  unfold State.lineEvent
  simp only [State.readBack_quiet quiet, still]
  rfl

theorem Receiver.Reads.of_feed {rx after : Receiver} {e : LineEvent} (h : rx.feed false e = (after, .none)) :
    rx.Reads [e] after := by
  intro s quiet
  show (s.withRx rx).lineEvent e = s.withRx after
  rw [State.lineEvent_quiet (s := s.withRx rx) quiet]
  show (((s.withRx rx).withRx (rx.feed false e).1).takeReport (rx.feed false e).2).checkSent = s.withRx after
  rw [h]
  exact State.checkSent_quiet (s := s.withRx after) quiet

theorem State.lineEvents_append (s : State) (es fs : List LineEvent) :
    s.lineEvents (es ++ fs) = (s.lineEvents es).lineEvents fs := List.foldl_append

theorem Receiver.Reads.nil (rx : Receiver) : rx.Reads [] rx := fun _ _ => rfl

theorem Receiver.Reads.append {rx mid after : Receiver} {es fs : List LineEvent} (h : rx.Reads es mid)
    (k : mid.Reads fs after) : rx.Reads (es ++ fs) after := by
  intro s quiet
  rw [State.lineEvents_append, h s quiet, k s quiet]

theorem Receiver.Reads.cons {rx mid after : Receiver} {e : LineEvent} {es : List LineEvent}
    (h : rx.feed false e = (mid, .none)) (k : mid.Reads es after) : rx.Reads (e :: es) after :=
  (Receiver.Reads.of_feed h).append k

/-! ## A character (R154) -/

/-- The bits of a byte are the byte. -/
theorem byteOfBits_bitsOf (b : Byte) : byteOfBits (bitsOf b) = b := by
  simp only [byteOfBits, bitsOf, List.foldl_cons, List.foldl_nil]
  ext i hi
  interval_cases i <;> simp

/-- R154: in DATA the samples are kept in their order, up to eight. -/
theorem Receiver.reads_bits {rx : Receiver} (data : rx.state = .data) (bs : List Bool) (room : rx.bits.length + bs.length ≤ 8) :
    rx.Reads (bs.map .sample) { rx with bits := rx.bits ++ bs } := by
  induction bs generalizing rx with
  | nil => simpa using Receiver.Reads.nil rx
  | cons b bs ih =>
    have sampled : rx.feed false (.sample b) = ({ rx with bits := rx.bits ++ [b] }, .none) := by
      simp only [List.length_cons] at room
      simp only [Receiver.feed, Receiver.sample, data]
      rw [if_pos (by omega)]
    refine .cons sampled ?_
    have rest := ih (rx := { rx with bits := rx.bits ++ [b] }) data (by
      simp only [List.length_cons] at room
      simp only [List.length_append, List.length_singleton]
      omega)
    simpa using rest

/-- R154: from its start edge a character is read into the buffer, and the receiver waits in BETWEEN. -/
theorem Receiver.reads_character {rx : Receiver} (edge : rx.state = .startCheck) (room : rx.buffer.length < 46) (b : Byte) :
    rx.Reads ((characterBits b).map .sample)
      { rx with state := .between, recessive := 1, buffer := rx.buffer ++ [b], bits := [] } := by
  have start : rx.feed false (.sample false) = ({ rx with state := .data, bits := [] }, .none) := by
    simp [Receiver.feed, Receiver.sample, edge]
  have bits := Receiver.reads_bits (rx := { rx with state := .data, bits := [] }) rfl (bitsOf b) (Nat.le_refl 8)
  have stop : ({ rx with state := .data, bits := bitsOf b } : Receiver).feed false (.sample true) =
      ({ rx with state := .between, recessive := 1, buffer := rx.buffer ++ [b], bits := [] }, .none) := by
    have eight : ¬ (bitsOf b).length < 8 := by simp [bitsOf]
    have fits : ¬ Config.maxChars ≤ rx.buffer.length := by simpa [Config.maxChars] using room
    simp only [Receiver.feed, Receiver.sample]
    rw [if_neg eight, if_neg (by decide), if_neg fits, byteOfBits_bitsOf]
  unfold characterBits
  rw [List.map_cons, List.map_append]
  exact .cons start (bits.append (.of_feed stop))

/-! ## A frame (R153, R155) -/

/-- The receiver in BETWEEN after the characters `chars` of another station's frame, the last of them number `n`. -/
def Receiver.midFrame (chars : List Byte) (n : Nat) : Receiver :=
  { state := .between, recessive := 1, buffer := chars, lastEdge := 10 * n, bits := [], own := false }

/-- R155: each further character begins 10 bit times after the one before it. -/
theorem Receiver.reads_characters (chars more : List Byte) (n : Nat) (room : chars.length + more.length ≤ 46) :
    (Receiver.midFrame chars n).Reads (more.mapIdx fun i => characterEvents (i + (n + 1))).flatten
      (.midFrame (chars ++ more) (n + more.length)) := by
  induction more generalizing chars n with
  | nil => simpa using Receiver.Reads.nil _
  | cons b more ih =>
    have edge : (Receiver.midFrame chars n).feed false (.edge (10 * (n + 1))) =
        ({ Receiver.midFrame chars n with state := .startCheck, lastEdge := 10 * (n + 1) }, .none) := by
      have soon : 10 * (n + 1) - (Receiver.midFrame chars n).lastEdge ≤ 15 := by
        show 10 * (n + 1) - 10 * n ≤ 15
        omega
      exact if_pos soon
    have character : (Receiver.midFrame chars n).Reads (characterEvents (n + 1) b) (.midFrame (chars ++ [b]) (n + 1)) := by
      unfold characterEvents
      rw [if_neg (Nat.succ_ne_zero n)]
      refine .cons edge (Receiver.reads_character rfl ?_ b)
      simp only [List.length_cons] at room
      show chars.length < 46
      omega
    have rest := ih (chars ++ [b]) (n + 1) (by
      simp only [List.length_cons] at room
      simp only [List.length_append, List.length_singleton]
      omega)
    rw [List.mapIdx_cons, List.flatten_cons]
    have offset : (fun i => characterEvents (i + 1 + (n + 1))) = fun i => characterEvents (i + (n + 1 + 1)) :=
      funext fun i => congrArg characterEvents (by omega)
    simp only [Nat.zero_add, offset]
    refine character.append ?_
    rw [List.append_assoc, List.singleton_append] at rest
    rwa [List.length_cons, show n + (more.length + 1) = n + 1 + more.length by omega]

/-- The receiver at the end of a frame that another station sent after an idle (R155). -/
def Receiver.tookLine (f : List Byte) : Receiver :=
  { state := .hunting, recessive := 11, buffer := f, lastEdge := 10 * (f.length - 1), bits := [], own := false }

/-- R153 to R156: a frame of 1 to 46 characters after an idle reaches its checks whole. -/
theorem State.lineEvents_lineOf {s : State} {f : List Byte} (quiet : s.bus.tx = .quiet) (hunting : s.bus.rx.state = .hunting)
    (least : 1 ≤ f.length) (most : f.length ≤ 46) :
    s.lineEvents (lineOf f) = ((s.withRx (.tookLine f)).frameEnd f).checkSent := by
  obtain ⟨b, more, rfl⟩ : ∃ b more, f = b :: more := List.exists_cons_of_length_pos least
  let idle : Receiver := { s.bus.rx with recessive := 11 }
  have rests : s.bus.rx.feed false (.recessive 11) = (idle, .none) := by
    simp only [Receiver.feed, Receiver.rest, hunting, idle]
    rw [Nat.min_eq_left (by omega)]
  have begins : idle.feed false (.edge 0) = (idle.firstEdge 0, .none) := by
    simp [Receiver.feed, Receiver.edge, idle, hunting]
  have first : (idle.firstEdge 0).Reads ((characterBits b).map .sample) (.midFrame [b] 0) :=
    Receiver.reads_character (rx := idle.firstEdge 0) rfl (Nat.zero_lt_succ 45) b
  have others := Receiver.reads_characters [b] more 0 (by simpa [Nat.add_comm] using most)
  have read : s.bus.rx.Reads (.recessive 11 :: .edge 0 :: frameEvents (b :: more)) (.midFrame (b :: more) more.length) := by
    refine .cons rests (.cons begins ?_)
    unfold frameEvents
    rw [List.mapIdx_cons, List.flatten_cons]
    refine first.append ?_
    simpa using others
  have line : lineOf (b :: more) = (.recessive 11 :: .edge 0 :: frameEvents (b :: more)) ++ [.recessive 10] := rfl
  rw [line, State.lineEvents_append]
  have taken : s.lineEvents (.recessive 11 :: .edge 0 :: frameEvents (b :: more)) =
      s.withRx (.midFrame (b :: more) more.length) := read s quiet
  rw [taken]
  exact State.lineEvent_quiet (s := s.withRx (.midFrame (b :: more) more.length)) quiet (.recessive 10)

/-! ## The discard report (R124, R156) -/

theorem State.discard_annuls {s : State} (start : s.comm.mode ≠ .start) (isolated : s.comm.mode ≠ .isolated) :
    s.discard = s.annul := by
  unfold State.discard
  split
  · next mode => exact absurd mode start
  · rfl
  · rfl
  · rfl
  · next mode => exact absurd mode isolated

/-- R124: an ARMED conversion is ended, with the outcome ANNULLED against its command. -/
theorem State.annul_armed {s : State} {c n : Nat} (armed : s.seq.state = .armed) (command : s.seq.armed = some (c, n)) :
    s.annul = s.seqToIdle.giveOutcome c n .annulled := by
  simp only [State.annul, armed, command, if_true]

/-- R124: the discard report changes the sequencer, the peers and the bus's queue at most. -/
theorem State.annul_eq (s : State) : s.annul = { s with
    seq := s.annul.seq, peers := s.annul.peers
    bus := { s.bus with
      outcome := s.annul.bus.outcome, statusPending := s.annul.bus.statusPending, silence := s.annul.bus.silence } } := by
  have idle : s.seqToIdle.bus = { s.bus with
      statusPending := s.seqToIdle.bus.statusPending, silence := s.seqToIdle.bus.silence } := State.requestStatus_bus _
  unfold State.annul
  split
  · split
    · next c n _ =>
      have given : (s.seqToIdle.giveOutcome c n .annulled).bus = { s.seqToIdle.bus with
          outcome := some { console := c, tag := n, outcome := .annulled }
          statusPending := (s.seqToIdle.giveOutcome c n .annulled).bus.statusPending
          silence := (s.seqToIdle.giveOutcome c n .annulled).bus.silence } := State.requestStatus_bus _
      rw [State.giveOutcome_eq, given, idle]
      rfl
    · rw [State.seqToIdle, State.requestStatus_eq, State.requestStatus_bus]
  · rfl

/-- R156: a frame that fails its checks is the discard report, and the line's receiver. -/
theorem State.frameEnd_discards {s : State} {f : List Byte} (fails : decodeFrame s.comm.jumper s.comm.strapLevel f = none) :
    s.frameEnd f = s.discard.withRx s.bus.rx := by
  unfold State.frameEnd State.judgeFrame
  rw [fails]
  rfl

/-- Settles O7: the line brings the frame to its checks, which it fails, and the discard report annuls an ARMED conversion. -/
theorem discardAnnulsArmed : Obligations.DiscardAnnulsArmed := by
  unfold Obligations.DiscardAnnulsArmed
  intro s f con tag awake quiet hunting least most fails start isolated
  let u := s.withRx (.tookLine f)
  have same := u.annul_eq
  have run : exec (.frameDiscard (lineOf f)) s = .next (u.annul.withRx (.tookLine f)) := by
    refine (live_of_not_inReset (·.lineEvents (lineOf f)) awake).trans (congrArg _ ?_)
    rw [State.lineEvents_lineOf quiet hunting least most, State.frameEnd_discards (s := u) fails,
      State.discard_annuls (s := u) start isolated]
    refine State.checkSent_quiet (s := u.annul.withRx _) ?_
    show u.annul.bus.tx = .quiet
    rw [same]
    exact quiet
  refine ⟨_, run, fun armed command => ?_, fun other => ?_, ?_⟩
  · have annulled := State.annul_armed (s := u) armed command
    rw [annulled]
    refine ⟨rfl, rfl, rfl, rfl, rfl, rfl, State.giveOutcome_outcome _ _ _ _, rfl, ?_, ?_, State.requestStatus_pending _⟩ <;>
      rw [← annulled, same] <;> rfl
  · have idle : u.annul = u := if_neg other
    rw [idle]
    rfl
  · rw [same]
    exact ⟨rfl, rfl, rfl, rfl, rfl, rfl, rfl, rfl, rfl⟩

end Sys2Proof.Machine
end

-- ==== Proofs: a step begins, and the clocks of a step ====
section
/-! SETTLES O42. A dwell that has passed hands over to the next step or completes the conversion, and the step time limit is
reported (R126, R127, R130 to R132). -/

namespace Sys2Proof.Machine

/-! ## The start of a step (R126, R127) -/

/-- The sequencer at the start of step `k` with the flags of its conditions. -/
def Sequencer.begins (q : Sequencer) (k : Nat) (met : List Bool) : Sequencer :=
  { q with step := k, phase := .waitPeers, met := met, slewMove := .none, rakeMove := .none, stepElapsed := 0, dwellElapsed := 0 }

/-- The step at index `k` of the running layout. -/
def State.stepAt (s : State) (k : Nat) : StepRecord := ({ s with seq := { s.seq with step := k } } : State).currentStep

/-- A step starts in WAIT_PEERS with the flags of the conditions that its start finds met. -/
theorem State.startStep_testConds (s : State) (k : Nat) : (s.startStep k).testConds (fun _ => true) =
    { s with seq := s.seq.begins k ((s.stepAt k).conds.map s.condMet), bus := s.requestStatus.bus } := by
  have flags (cs : List (Nat × Nat)) : List.zipWith (fun m c => m || (true && s.condMet c)) (cs.map fun _ => false) cs =
      cs.map s.condMet := by
    induction cs with
    | nil => rfl
    | cons c cs ih => rw [List.map_cons, List.zipWith_cons_cons, ih]; simp
  show ({ s with
    seq := s.seq.begins k (List.zipWith (fun m c => m || (true && s.condMet c)) ((s.stepAt k).conds.map fun _ => false)
      (s.stepAt k).conds)
    bus := s.requestStatus.bus } : State) = _
  rw [flags]

/-- R111, R127: no condition is met by a station of which nothing FRESH is known. -/
theorem State.condMet_notFresh {s : State} {c : Nat × Nat}
    (h : ∀ r, findPeer s.peers c.1 = some r → r.freshness ≠ .fresh) : s.condMet c = false := by
  unfold State.condMet
  split
  · next r found =>
    split
    · next fresh _ => exact absurd fresh (h r found)
    · rfl
  · rfl

/-- A condition on a station of which nothing FRESH is known leaves its flag clear. -/
theorem State.unmet_of_notFresh {s : State} {k : Nat}
    (h : ∃ c ∈ (s.stepAt k).conds, ∀ r, findPeer s.peers c.1 = some r → r.freshness ≠ .fresh) :
    ((s.stepAt k).conds.map s.condMet).all id = false := by
  obtain ⟨c, cond, unheard⟩ := h
  exact List.all_eq_false.mpr ⟨false, List.mem_map.mpr ⟨c, cond, State.condMet_notFresh unheard⟩, by decide⟩

/-! ## The end of a dwell (R130, R131) -/

theorem exec_dwellEnd {s : State} (awake : s.inReset = false) : exec .dwellEnd s = .next s.dwellEnds :=
  live_of_not_inReset State.dwellEnds awake

theorem State.dwellEnds_waits {s : State} (h : s.seq.state ≠ .running ∨ s.seq.phase ≠ .dwell) : s.dwellEnds = s :=
  if_neg fun both => h.elim (· both.1) (· both.2)

/-- The state in which the dwell of the step has passed. -/
def State.dwelt (s : State) : State := { s with seq := { s.seq with dwellElapsed := s.currentStep.dwellMs } }

theorem State.dwellEnds_finishes {s : State} (running : s.seq.state = .running) (dwells : s.seq.phase = .dwell) :
    s.dwellEnds = s.dwelt.finishStep.runPhases := if_pos ⟨running, dwells⟩

/-- R131: the last step DONE, the sequencer is COMPLETE. -/
theorem State.finishStep_completes {s : State} (last : s.seq.count ≤ s.seq.step + 1) : s.finishStep = { s with
    seq := { s.seq with state := .complete, phase := .done, holdOff := none }
    peers := dropScript s.peers, bus := s.requestStatus.bus } := if_neg (by omega)

/-- R131: a step DONE that is not the last hands over to the next. -/
theorem State.finishStep_next {s : State} (more : s.seq.step + 1 < s.seq.count) :
    s.finishStep = (s.startStep (s.seq.step + 1)).testConds (fun _ => true) := if_pos more

/-! ## The step time limit (R132) -/

theorem exec_stepTimeout {s : State} (awake : s.inReset = false) : exec .stepTimeout s = .next s.stepTimeEnds :=
  live_of_not_inReset State.stepTimeEnds awake

theorem State.stepTimeEnds_waits {s : State}
    (h : s.seq.state ≠ .running ∨ (s.seq.phase ≠ .waitPeers ∧ s.seq.phase ≠ .moving)) : s.stepTimeEnds = s := by
  refine if_neg fun runs => ?_
  obtain ⟨running, phase⟩ := s.stepTimerRuns_iff.mp runs
  exact h.elim (· running) fun other => phase.elim other.1 other.2

/-- The state in which the step time limit has been reached. -/
def State.timedOut (s : State) : State := { s with seq := { s.seq with stepElapsed := s.stepLimitMs } }

theorem State.stepTimeEnds_reports {s : State} (running : s.seq.state = .running)
    (phase : s.seq.phase = .waitPeers ∨ s.seq.phase = .moving) :
    s.stepTimeEnds = s.timedOut.report .stepTimeout s.timeoutFields := if_pos (s.stepTimerRuns_iff.mpr ⟨running, phase⟩)

theorem MoveState.open_iff (m : MoveState) : m.open_ = true ↔ m = .requested ∨ m = .interrupted ∨ m = .heldBack := by
  cases m <;> simp [MoveState.open_]

theorem State.timeoutFields_zone (s : State) : s.timeoutFields.zone = none := by
  unfold State.timeoutFields
  split <;> rfl

/-- R132: in MOVING the report names the axis still to come, the rake before the slew. -/
theorem State.timeoutFields_axis {s : State} (moving : s.seq.phase = .moving) : s.timeoutFields.axis =
    if s.seq.rakeMove.open_ then some .rake else if s.seq.slewMove.open_ then some .slew else none := by
  unfold State.timeoutFields
  rw [moving]

/-- R132: in WAIT_PEERS the report names the station of the first condition not met. -/
theorem State.timeoutFields_peer {s : State} (waits : s.seq.phase = .waitPeers) {i : Nat} {c : Nat × Nat}
    (cond : s.currentStep.conds[i]? = some c) (clear : s.seq.met[i]? = some false)
    (before : ∀ j, j < i → s.seq.met[j]? = some true) : s.timeoutFields.peer = some c.1 := by
  have at_i : (List.zip s.seq.met s.currentStep.conds)[i]? = some (false, c) :=
    List.getElem?_zip_eq_some.mpr ⟨clear, cond⟩
  obtain ⟨within, is⟩ := List.getElem?_eq_some_iff.mp at_i
  have first : (List.zip s.seq.met s.currentStep.conds).find? (fun mc => !mc.1) = some (false, c) := by
    refine List.find?_eq_some_iff_getElem.mpr ⟨rfl, i, within, is, fun j less => ?_⟩
    have met := before j less
    obtain ⟨_, set⟩ := List.getElem?_eq_some_iff.mp met
    simp [set]
  unfold State.timeoutFields
  rw [waits]
  simp only [first, Option.map_some]

/-! ## The statement -/

/-- Settles O42: a dwell that ends finishes its step, the next step waiting for a peer that is not FRESH, and the step time limit
is a report. -/
theorem stepClocks : Obligations.StepClocks := by
  unfold Obligations.StepClocks
  intro s awake next open_
  have opens (m : MoveState) : m.open_ = true ↔ open_ m := m.open_iff
  refine ⟨fun waits => ?_, fun running dwells last => ?_, fun running dwells more unheard => ?_, fun waits => ?_,
    fun running phase => ?_⟩
  · rw [exec_dwellEnd awake, State.dwellEnds_waits waits]
  · refine ⟨s.dwelt.requestStatus.bus, ?_⟩
    rw [exec_dwellEnd awake, State.dwellEnds_finishes running dwells, State.finishStep_completes (s := s.dwelt) last,
      State.runPhases_waits (by exact .inl nofun)]
    rfl
  · refine ⟨(s.dwelt.stepAt (s.seq.step + 1)).conds.map s.dwelt.condMet, s.dwelt.requestStatus.bus, ?_, State.requestStatus_pending _⟩
    rw [exec_dwellEnd awake, State.dwellEnds_finishes running dwells, State.finishStep_next (s := s.dwelt) more,
      State.startStep_testConds, State.runPhases_waitPeers rfl (State.unmet_of_notFresh (s := s.dwelt) unheard)]
    rfl
  · rw [exec_stepTimeout awake, State.stepTimeEnds_waits waits]
  · let u := s.timedOut
    have runs : u.seq.state = .running := running
    have place : u.faultPlace = some (s.seq.layout, s.seq.step) := by
      rw [State.faultPlace_eq, if_neg (by simp [runs]), if_pos ((Sequencer.converting_iff u.seq).mpr (.inl runs))]
      rfl
    obtain ⟨slew, rake, aborted, -⟩ := u.report_halts .stepTimeout s.timeoutFields
    have ended : s.seq.endedFrom (u.report .stepTimeout s.timeoutFields).seq := by
      simp only [Sequencer.endedFrom, running, runs] at aborted ⊢
      exact aborted
    refine ⟨_, by rw [exec_stepTimeout awake, State.stepTimeEnds_reports running phase], u.report_held _ _, ended, slew, rake,
      (u.report_reacts .stepTimeout s.timeoutFields nofun).stopsOnly, fun empty => ⟨_, u.report_record _ _ empty, rfl, place,
        s.timeoutFields_zone, fun moving rakes => ?_, fun moving still slews => ?_, fun i c waits cond clear before => ?_⟩⟩
    · exact (State.timeoutFields_axis moving).trans (if_pos ((opens _).mpr rakes))
    · exact (State.timeoutFields_axis moving).trans
        ((if_neg (mt (opens _).mp still)).trans (if_pos ((opens _).mpr slews)))
    · exact State.timeoutFields_peer waits cond clear before

end Sys2Proof.Machine
end

-- ==== Proofs: the enable runs out ====
section
/-! SETTLES O38. The enable's end clears the flag, and pauses the conversion or ends the run (R133, R142, R148). -/

namespace Sys2Proof.Machine

/-! ## The move states after a stop (R129, R134) -/

theorem Sequencer.setMove_other (q : Sequencer) (x : Axis) (m : MoveState) :
    (q.setMove x m).move (otherAxis x) = q.move (otherAxis x) := by cases x <;> rfl

/-- A report about an axis leaves the move state of the other as it was. -/
theorem State.tellStopped_moveOther (s : State) (x : Axis) (by_ : Option Requester) :
    (s.tellStopped x by_).seq.move (otherAxis x) = s.seq.move (otherAxis x) := by
  rcases by_ with _ | (_ | _ | _) <;> simp only [State.tellStopped]
  case some.sequencer =>
    split
    · exact s.seq.setMove_other x .interrupted
    · rfl
  case some.enableMonitor =>
    split
    · split <;> rfl
    · rfl
  case some.positionUnit =>
    split
    · rfl
    · split <;> simp

theorem State.stopEnded_seq (s : State) (x : Axis) : (s.stopEnded x).seq = s.seq := by
  simp only [State.stopEnded]
  split
  · split <;> simp
  · rfl

theorem State.stopAxis_moveOther (s : State) (x : Axis) (k : StopKind) :
    (s.stopAxis x k).seq.move (otherAxis x) = s.seq.move (otherAxis x) := by
  have told (a : AxisUnit) (by_ : Option Requester) :
      ((s.setAxis x a).tellStopped x by_).seq.move (otherAxis x) = s.seq.move (otherAxis x) := by
    rw [State.tellStopped_moveOther, State.setAxis_seq]
  unfold State.stopAxis
  simp only
  split
  on_goal 1 => exact told _ _
  on_goal 1 => exact told _ _
  all_goals rw [State.stopEnded_seq]; exact told _ _

/-- R134: a stop out of TRACKING interrupts the move that the sequencer asked for. -/
theorem State.stopAxis_interrupts {s : State} {x : Axis} (k : StopKind) (converting : s.seq.converting = true)
    (asked : s.seq.move x = .requested) (tracking : (s.axis x).state = .tracking false)
    (asker : (s.axis x).requester = some .sequencer) : (s.stopAxis x k).seq.move x = .interrupted := by
  have here (a : AxisUnit) : (s.setAxis x a).seq.converting ∧ (s.setAxis x a).seq.move x = .requested := by
    rw [State.setAxis_seq]; exact ⟨converting, asked⟩
  simp only [State.stopAxis, tracking, asker, State.tellStopped]
  rw [if_pos (here _)]
  exact Sequencer.setMove_move _ x .interrupted

/-- The stops of the REQUESTED axes interrupt a move out of TRACKING, and leave the move state of another axis as it was. -/
theorem State.stopRequested_move (s : State) (x : Axis) :
    if s.seq.move x = .requested then
      s.seq.converting = true → (s.axis x).state = .tracking false → (s.axis x).requester = some .sequencer →
        s.stopRequested.seq.move x = .interrupted
    else s.stopRequested.seq.move x = s.seq.move x := by
  let u := if s.seq.rakeMove = .requested then s.stopAxis .rake .controlled else s
  have ends : s.stopRequested = if s.seq.slewMove = .requested then u.stopAxis .slew .controlled else u := rfl
  cases x with
  | slew =>
    have before : u.seq.move .slew = s.seq.move .slew ∧ u.axis .slew = s.axis .slew ∧ s.seq.MarksMoves u.seq := by
      unfold u
      split
      · exact ⟨s.stopAxis_moveOther .rake _, s.stopAxis_other .rake _, s.stopAxis_marks .rake _⟩
      · exact ⟨rfl, rfl, .refl _⟩
    obtain ⟨move, axis, marks⟩ := before
    show if s.seq.slewMove = .requested then _ else _
    rw [ends]
    split
    · next asked =>
      intro converting tracking asker
      exact State.stopAxis_interrupts _ (marks.converting.trans converting) (move.trans asked) (axis ▸ tracking) (axis ▸ asker)
    · exact move
  | rake =>
    have after : s.stopRequested.seq.move .rake = u.seq.move .rake := by
      rw [ends]
      split
      · exact u.stopAxis_moveOther .slew _
      · rfl
    show if s.seq.rakeMove = .requested then _ else _
    rw [after]
    unfold u
    split
    · next asked => exact fun converting tracking asker => State.stopAxis_interrupts _ converting asked tracking asker
    · rfl

theorem MotionOnly.fault {s t : State} (h : MotionOnly s t) : t.fault = s.fault := by rw [h]

/-! ## The active run ends with its axis (R142, R148) -/

/-- The end of a search leg is not seen by a stop. -/
theorem AxisUnit.LegEnds.stoppedBy {a b c : AxisUnit} {k : StopKind} (h : a.LegEnds b) (stop : b.stoppedBy k c) :
    a.stoppedBy k c := by
  rw [h.1] at stop
  exact stop

/-- The run's end leaves the axis without the run as it was. -/
theorem State.endRun_other {s : State} {x : Axis} (run : s.mon.run.axis = some x) :
    s.endRun.axis (otherAxis x) = s.axis (otherAxis x) := by
  unfold State.endRun
  split
  · rfl
  · cases x <;> rfl
  · next y home =>
    have own : y = x := Option.some.inj ((congrArg Run.axis home).symm.trans run)
    rw [own]
    cases x <;> rfl

/-- The run has ended, and then its axis was stopped. -/
theorem State.endRunStopping_eq {s : State} {x : Axis} (run : s.mon.run.axis = some x) :
    s.endRunStopping = s.endRun.stopAxis x .controlled := by
  unfold State.endRunStopping
  rw [run]

theorem State.endRunStopping_none {s : State} (run : s.mon.run = .none) : s.endRunStopping = s := by
  unfold State.endRunStopping
  rw [run]
  rfl

theorem State.endRunStopping_mon {s : State} {x : Axis} (run : s.mon.run.axis = some x) :
    s.endRunStopping.mon = { s.mon with run := .none } := by
  rw [State.endRunStopping_eq run]
  rcases s.endRun.stopAxis_runEnds x .controlled with same | ended
  · rw [same, State.endRun_mon]
  · rw [ended, State.endRun_mon]

theorem State.endRunStopping_stops {s : State} {x : Axis} (run : s.mon.run.axis = some x) :
    (s.axis x).stoppedBy .controlled (s.endRunStopping.axis x) := by
  rw [State.endRunStopping_eq run]
  exact (s.endRun_axis x).stoppedBy (s.endRun.stopAxis_halts x .controlled).stoppedBy

theorem State.endRunStopping_other {s : State} {x : Axis} (run : s.mon.run.axis = some x) :
    s.endRunStopping.axis (otherAxis x) = s.axis (otherAxis x) := by
  rw [State.endRunStopping_eq run, State.stopAxis_other, State.endRun_other run]

theorem State.endRunStopping_motionOnly {s : State} {x : Axis} (run : s.mon.run.axis = some x) :
    MotionOnly s s.endRunStopping := by
  rw [State.endRunStopping_eq run]
  exact s.endRun_motionOnly.trans (State.stopAxis_motionOnly _ x _)

theorem State.endRunStopping_marks {s : State} {x : Axis} (run : s.mon.run.axis = some x) :
    s.seq.MarksMoves s.endRunStopping.seq := by
  rw [State.endRunStopping_eq run, ← s.endRun_seq]
  exact s.endRun.stopAxis_marks x _

theorem State.endRunStopping_stopsOnly {s : State} {x : Axis} (run : s.mon.run.axis = some x) : s.stopsOnly s.endRunStopping := by
  rw [State.endRunStopping_eq run]
  exact (s.endRun_frame.trans (State.stopAxis_frame _ x _)).stopsOnly fun y =>
    (s.endRun_axis y).sensesSame.trans (s.endRun.stopAxis_sensesSame x _ y)

/-! ## The pause (R133) -/

/-- PAUSED, before any axis is stopped. -/
def State.paused (s : State) : State := { s with seq := { s.seq with state := .paused }, bus := s.requestStatus.bus }

theorem State.pause_running {s : State} (running : s.seq.state = .running) : s.pause = s.paused.stopRequested := by
  have held : s.paused.judgeZoneWait = s.paused := if_pos (.inl rfl)
  exact (if_pos running).trans (congrArg State.stopRequested held)

theorem State.pause_other {s : State} (other : s.seq.state ≠ .running) : s.pause = s := if_neg other

/-! ## The statement -/

theorem exec_enableExpiry {s : State} (awake : s.inReset = false) : exec .enableExpiry s = .next s.enableEnds :=
  live_of_not_inReset State.enableEnds awake

/-- The enable absent and its timer stopped. -/
def State.lapsed (s : State) : State := { s with mon := { s.mon with present := false, timer := none } }

theorem State.enableEnds_lapses {s : State} (timed : s.mon.timer.isSome) : s.enableEnds = s.lapsed.endRunStopping.pause :=
  if_pos timed

/-- Settles O38: without a run the lapse is the pause alone, and without a conversion it is the end of the run alone. -/
theorem enableEnds : Obligations.EnableEnds := by
  unfold Obligations.EnableEnds
  intro s x awake
  let u := s.lapsed
  have same (y : Axis) : u.axis y = s.axis y := by cases y <;> rfl
  have ends (timed : s.mon.timer.isSome) : exec .enableExpiry s = .next u.endRunStopping.pause := by
    rw [exec_enableExpiry awake, State.enableEnds_lapses timed]
  have idle (timed : s.mon.timer.isSome) (run : s.mon.run = .none) : exec .enableExpiry s = .next u.pause := by
    rw [ends timed, State.endRunStopping_none (s := u) run]
  refine ⟨fun stopped => ?_, fun timed run other => ?_, fun timed run running => ?_, fun timed run other => ?_⟩
  · rw [exec_enableExpiry awake, State.enableEnds, if_neg (by simp [stopped])]
  · rw [idle timed run, State.pause_other (s := u) other]
    rfl
  · let w := u.paused
    have motion := w.stopRequested_motionOnly
    have marks := w.stopRequested_marks.1
    have paused (y : Axis) : w.axis y = s.axis y := by cases y <;> rfl
    have moves : w.seq.move x = s.seq.move x := by cases x <;> rfl
    have axis := w.stopRequested_axis x
    have move := w.stopRequested_move x
    rw [moves, paused] at axis move
    have mon : w.stopRequested.mon = u.mon := by
      refine w.stopRequested_runEnds.elim id fun ended => ended.trans ?_
      rw [← run]
      rfl
    have only : s.stopsOnly w.stopRequested :=
      ((Frame.ofSeqMon s w.seq u.mon).trans (State.requestStatus_frame _)).trans w.stopRequested_frame |>.stopsOnly fun y =>
        paused y ▸ w.stopRequested_sensesSame y
    refine ⟨w.stopRequested, by rw [idle timed run, State.pause_running (s := u) running], ?_, ?_, ?_, ?_, ?_, ?_, ?_, mon,
      motion.fault, motion.peers, only, fun asked => ?_, fun asked tracking asker => ?_, fun other => ⟨?_, ?_⟩⟩
    iterate 7 · rw [marks]; rfl
    · rwa [if_pos asked] at axis
    · rw [if_pos asked] at move
      exact move rfl tracking asker
    · rwa [if_neg other] at axis
    · rwa [if_neg other] at move
  · let t := u.endRunStopping
    have run' : u.mon.run.axis = some x := run
    have motion := State.endRunStopping_motionOnly run'
    have state : t.seq.state = s.seq.state := (State.endRunStopping_marks run').state
    have stops := same x ▸ State.endRunStopping_stops run'
    have rests := same (otherAxis x) ▸ State.endRunStopping_other run'
    exact ⟨t, by rw [ends timed, State.pause_other (s := t) (state ▸ other)], State.endRunStopping_mon run', stops, rests,
      motion.fault, motion.peers, state, State.endRunStopping_stopsOnly run'⟩

end Sys2Proof.Machine
end

-- ==== Proofs: an ENABLE ====
section
/-! SETTLES O37. An ENABLE of a console that names this station restarts the timer, and the flag that it sets resumes a PAUSED
conversion (R135, R141). -/

namespace Sys2Proof.Machine

/-! ## A request that waits (R22, R23, R47) -/

theorem clampInt_of_inside {lo hi t : Int} (below : lo ≤ t) (above : t ≤ hi) : clampInt lo hi t = t := by
  unfold clampInt
  omega

/-- R47: a request whose target lies within the soft limits, or is not judged by them, waits for the end of a stop. -/
theorem State.request_waits {s : State} {x : Axis} {k : StopKind} {target : Int} (v : Nat) (q : Requester)
    (stopping : (s.axis x).state = .stopping k) (neg : (s.axis x).negLimit = false) (pos : (s.axis x).posLimit = false)
    (inside : (s.axis x).referenced = true → (s.params x).softLo ≤ target ∧ target ≤ (s.params x).softHi) :
    s.request x { goal := .position target v, asker := q } = s.setAxis x { s.axis x with
      pending := some { goal := .position target (clampSpeed (s.params x) v), asker := q } } := by
  have stands (ref : (s.axis x).referenced = true) : clampInt (s.params x).softLo (s.params x).softHi target = target :=
    clampInt_of_inside (inside ref).1 (inside ref).2
  have goal : clampGoal (s.params x) (s.axis x).referenced (.position target v) =
      .position target (clampSpeed (s.params x) v) := by
    by_cases ref : (s.axis x).referenced = true
    · simp [clampGoal, stands ref]
    · simp [clampGoal, ref]
  have quiet : s.noticed x (.position target v) = s := by
    refine if_neg ?_
    by_cases ref : (s.axis x).referenced = true
    · simp [targetLimited, stands ref]
    · simp [targetLimited, ref]
  rw [State.request_eq, State.clamped, goal, quiet, if_neg (by simp [AxisUnit.lockRefuses_free neg pos]),
    State.placeRequest_waits _ (.inr (.inl ⟨k, stopping⟩))]

/-! ## The resume (R135) -/

/-- RUNNING again, before any axis is asked. -/
def State.resumed (s : State) : State :=
  { s with
    seq := { s.seq with state := .running }, bus := s.requestStatus.bus
    zones := ({ s with seq := { s.seq with state := .running } } : State).requestStatus.judgeZoneWait.zones }

theorem State.resumed_eq (s : State) :
    ({ s with seq := { s.seq with state := .running } } : State).requestStatus.judgeZoneWait = s.resumed :=
  State.judgeZoneWait_eq _

theorem State.resumed_rows (s : State) : s.resumed.zones.rows = s.zones.rows := (State.judgeZoneWait_frame _).rows

theorem State.resume_other {s : State} (other : s.seq.state ≠ .paused) : s.resume = s := if_neg other

/-- A dwell runs on. -/
theorem State.resume_dwell {s : State} (paused : s.seq.state = .paused) (dwells : s.seq.phase = .dwell) :
    s.resume = s.resumed := by
  have phase : s.resumed.seq.phase = .dwell := dwells
  simp only [State.resume, paused, if_true, State.resumed_eq, phase]

/-- In MOVING the axes are taken up in turn, the rake first. -/
theorem State.resume_moving {s : State} (paused : s.seq.state = .paused) (moving : s.seq.phase = .moving) :
    s.resume = ((s.resumed.resumeAxis s.resumed.seq .rake).resumeAxis s.resumed.seq .slew).runPhases := by
  have phase : s.resumed.seq.phase = .moving := moving
  simp only [State.resume, paused, if_true, State.resumed_eq, phase]

/-- An axis that has no target, or has arrived, is not asked. -/
theorem State.resumeAxis_rests (s : State) {q : Sequencer} {x : Axis} (h : q.move x = .none ∨ q.move x = .arrived) :
    s.resumeAxis q x = s := by
  unfold State.resumeAxis
  rcases h with h | h <;> rw [h]

/-- The state in which the slew, still stopping, has been asked for the step's target again. -/
def State.slewResumed (s : State) (target : Int) (v : Nat) : State :=
  { s.resumed with
    seq := { s.seq with state := .running, slewMove := .requested }
    slew := { s.slew with
      pending := some { goal := .position target (clampSpeed (s.params .slew) (256 * v)), asker := .sequencer } } }

section Resumes

variable {s : State} {k : StopKind} {target : Int} {v : Nat} (interrupted : s.seq.slewMove = .interrupted)
  (stopping : s.slew.state = .stopping k) (neg : s.slew.negLimit = false) (pos : s.slew.posLimit = false)
  (step : s.currentStep.slew = some (target, v))
  (inside : s.slew.referenced = true → (s.params .slew).softLo ≤ target ∧ target ≤ (s.params .slew).softHi)

include interrupted stopping neg pos step inside

/-- An INTERRUPTED slew is asked for the step's target, and the request waits for the end of the stop. -/
theorem State.resumeAxis_slew : s.resumed.resumeAxis s.resumed.seq .slew = s.slewResumed target v := by
  have move : s.resumed.seq.move .slew = .interrupted := interrupted
  have pair : s.resumed.currentStep.pair .slew = some (target, v) := step
  simp only [State.resumeAxis, move, State.giveTarget, pair]
  exact (if_pos rfl).trans (State.request_waits (x := .slew) (256 * v) .sequencer stopping neg pos inside)

/-- R135: MOVING goes on with the slew asked again. -/
theorem State.resume_asksSlew (paused : s.seq.state = .paused) (moving : s.seq.phase = .moving)
    (rake : s.seq.rakeMove = .none ∨ s.seq.rakeMove = .arrived) : s.resume = s.slewResumed target v := by
  rw [State.resume_moving paused moving, State.resumeAxis_rests _ (q := s.resumed.seq) (x := .rake) rake,
    State.resumeAxis_slew interrupted stopping neg pos step inside]
  exact State.runPhases_waits (.inr ⟨moving, rfl⟩)

end Resumes

/-! ## The enable monitor's judgement (R141) -/

/-- An ENABLE accepted, the timer restarted. -/
def State.enabled (s : State) : State := { s with mon := { s.mon with present := true, timer := some 150 } }

/-- R141: the conditions on an ENABLE that is heard. -/
theorem State.acceptsEnable_iff {s : State} {snd : Sender} (h : s.hears snd) (targets : BitVec 32) :
    s.acceptsEnable snd targets = true ↔ s.comm.mode ≠ .unconfigured ∧ snd.station.toNat ∈ s.consoles ∧ s.comm.straps ≠ 0 ∧
      targets.getLsbD s.comm.straps = true := by
  have mode : s.comm.mode = .operational ∨ s.comm.mode = .commission ↔ s.comm.mode ≠ .unconfigured := by
    obtain ⟨-, mode | mode | ⟨mode, -⟩, -⟩ := h <;> simp [mode]
  simp only [State.acceptsEnable, State.takesEnable, State.fromConsole, inTargets, Bool.and_eq_true, decide_eq_true_eq,
    List.contains_iff_mem, mode, and_assoc]
  exact .rfl

theorem State.enableTaken_refuses {s : State} {snd : Sender} {targets : BitVec 32} (h : ¬ s.acceptsEnable snd targets = true) :
    s.enableTaken snd targets = s := if_neg h

theorem State.enableTaken_present {s : State} {snd : Sender} {targets : BitVec 32} (h : s.acceptsEnable snd targets = true)
    (present : s.mon.present = true) : s.enableTaken snd targets = s.enabled := (if_pos h).trans (if_pos present)

theorem State.enableTaken_absent {s : State} {snd : Sender} {targets : BitVec 32} (h : s.acceptsEnable snd targets = true)
    (absent : s.mon.present = false) : s.enableTaken snd targets = s.enabled.resume :=
  (if_pos h).trans (if_neg (by simp [absent]))

/-- R135, R141: without a conversion to resume the flag and the timer are all. -/
theorem State.enableTaken_enables {s : State} {snd : Sender} {targets : BitVec 32} (h : s.acceptsEnable snd targets = true)
    (no : s.mon.present = true ∨ s.seq.state ≠ .paused) : s.enableTaken snd targets = s.enabled := by
  by_cases present : s.mon.present = true
  · exact State.enableTaken_present h present
  · rw [State.enableTaken_absent h (by simpa using present), State.resume_other (s := s.enabled) (no.resolve_left present)]

theorem exec_enableFrame {s : State} {snd : Sender} (h : s.hears snd) (targets : BitVec 32) :
    exec (.enableFrame snd targets) s =
      .next ((s.heard (Instr.enableFrame snd targets).frame).enableTaken snd targets) := by
  have awake : s.inReset = false := h.1
  exact (live_of_not_inReset (·.rxEnable snd targets) awake).trans (congrArg _ (State.receive_of_hears h _ _))

/-! ## The statement -/

/-- Settles O37: the monitor takes the frame or not, and the flag that becomes set is the resume of what stands in PAUSED. -/
theorem enableHeard : Obligations.EnableHeard := by
  unfold Obligations.EnableHeard
  intro s snd targets heard row taken good
  let u := s.heard row.frame
  have accepts : u.acceptsEnable snd targets = true ↔ good := State.acceptsEnable_iff (s := u) heard targets
  have run := exec_enableFrame heard targets
  have resumes (is : good) (absent : s.mon.present = false) : exec row s = .next u.enabled.resume :=
    run.trans (congrArg _ (State.enableTaken_absent (s := u) (accepts.mpr is) absent))
  refine ⟨fun no => ?_, fun is no => ?_, fun is absent paused dwells => ?_,
    fun k target v is absent paused moving rake interrupted stopping neg pos step inside => ?_⟩
  · exact run.trans (congrArg _ (State.enableTaken_refuses (mt accepts.mp no)))
  · exact run.trans (congrArg _ (State.enableTaken_enables (s := u) (accepts.mpr is) no))
  · exact ⟨_, _, (resumes is absent).trans (congrArg _ (State.resume_dwell (s := u.enabled) paused dwells)),
      State.resumed_rows _, State.requestStatus_pending _⟩
  · exact ⟨_, _, (resumes is absent).trans (congrArg _ (State.resume_asksSlew (s := u.enabled) interrupted stopping neg pos
      step inside paused moving rake)), State.resumed_rows _⟩

end Sys2Proof.Machine
end

-- ==== Proofs: a CONVERT ====
section
/-! SETTLES O39. A CONVERT is judged by its conditions in their order, then by the slots and the peer records, and arms the
sequencer when nothing refuses it (R106, R121, R122). -/

namespace Sys2Proof.Machine

/-! ## A command that is not processed (R114, R166) -/

/-- START examines no frame, and ISOLATED hands on none of another station. -/
theorem State.receive_unprocessed {s : State} {snd : Sender}
    (h : s.comm.mode = .start ∨ (s.comm.mode = .isolated ∧ snd.station.toNat ≠ s.comm.straps)) (frame : List Byte)
    (handOff : State → State) : s.receive frame true snd handOff = s.heard frame := by
  let u := s.heard frame
  show u.sortFrame snd handOff = u
  unfold State.sortFrame
  rcases h with start | ⟨isolated, other⟩
  · have unseen : u.examines = false := by
      have mode : u.comm.mode = .start := start
      unfold State.examines
      rw [mode]
    rw [if_neg (by simp [unseen])]
  · have single : u.checkDuplicate snd = u := if_neg fun double => other double.2.1
    split
    · rw [single]
      exact if_pos isolated
    · rfl

/-! ## The conditions before the layout (R121) -/

/-- The outcome of the first condition on the sequencer, the run, the faults and the references that fails. -/
def State.convertRefusal (s : State) : Option CmdOutcome :=
  if s.comm.mode ≠ .operational then some .refusedState
  else if s.seq.state = .armed ∨ s.seq.state = .running ∨ s.seq.state = .paused then some .refusedBusy
  else if s.mon.run ≠ .none then some .refusedBusy
  else if s.fault.lineAsserted = true then some .refusedStopLine
  else if s.fault.record.isSome then some .refusedFault
  else if s.slew.referenced = false ∨ s.rake.referenced = false then some .refusedNotReferenced
  else none

/-- What is judged when those conditions pass: the slot that holds the layout, and the records that its peers take. -/
def State.judgeLayout (s : State) (layout : Nat) : CmdOutcome ⊕ (Nat × Nat) :=
  match s.findLayout layout with
  | none => .inl .refusedNoLayout
  | some (slot, count) =>
    if grantsScript s.station s.peers (s.scriptPeers slot count) then .inr (slot, count) else .inl .refusedPeers

theorem State.judgeConvert_eq (s : State) (layout : Nat) :
    s.judgeConvert layout = (s.convertRefusal.map Sum.inl).getD (s.judgeLayout layout) := by
  unfold State.judgeConvert State.convertRefusal
  simp only [SeqState.atEase_eq_false_iff, Bool.not_eq_true', Bool.and_eq_false_iff]
  split_ifs <;> rfl

/-! ## The slot that holds a layout (R121) -/

/-- A slot that is PROGRAMMED or LOCKED with the layout in its header. -/
def Slot.stands (sl : Slot) (layout : Nat) : Prop :=
  (sl.state = .programmed ∨ sl.state = .locked) ∧ sl.header.map (·.layout) = some layout

theorem Slot.holds_iff (sl : Slot) (layout : Nat) : sl.holds layout = true ↔ sl.stands layout := by
  have whole : (sl.held = .programmed ∨ sl.held = .locked) ∧ sl.bad = false ↔ sl.state = .programmed ∨ sl.state = .locked := by
    unfold Slot.state
    cases sl.bad <;> cases sl.held <;> simp
  simp only [Slot.holds, Slot.stands, Bool.and_eq_true, Bool.or_eq_true, decide_eq_true_eq, Bool.not_eq_true', whole]

theorem State.findLayout_none {s : State} {layout : Nat}
    (h : layout = 0 ∨ 250 < layout ∨ ∀ sl ∈ s.nv.slots, ¬ sl.stands layout) : s.findLayout layout = none := by
  unfold State.findLayout
  split
  · have absent : ∀ sl ∈ s.nv.slots, ¬ sl.stands layout := (h.resolve_left (by omega)).resolve_left (by omega)
    rw [List.findIdx?_eq_none_iff.mpr fun sl mem => Bool.eq_false_iff.mpr (mt (sl.holds_iff layout).mp (absent sl mem))]
    rfl
  · rfl

/-- The first slot that holds the layout is the one found. -/
theorem State.findLayout_some {s : State} {layout i : Nat} {sl : Slot} {hd : SlotHeader} (least : 1 ≤ layout)
    (most : layout ≤ 250) (slot : s.nv.slots[i]? = some sl) (stands : sl.stands layout) (header : sl.header = some hd)
    (first : ∀ j, j < i → ∀ o, s.nv.slots[j]? = some o → ¬ o.stands layout) :
    s.findLayout layout = some (i + 1, hd.count) := by
  obtain ⟨within, is⟩ := List.getElem?_eq_some_iff.mp slot
  have index : s.nv.slots.findIdx? (fun sl => sl.holds layout) = some i := by
    refine List.findIdx?_eq_some_iff_getElem.mpr ⟨within, ?_, fun j less => ?_⟩
    · rw [is]
      exact (sl.holds_iff layout).mpr stands
    · exact mt (Slot.holds_iff _ layout).mp (first j less _ (List.getElem?_eq_getElem (less.trans within)))
  rw [State.findLayout, if_pos ⟨least, most⟩, index]
  simp [slot, header]

/-! ## The script peers (R106) -/

/-- The grant's two conditions. -/
theorem grantsScript_iff (own : Nat) (ps : List PeerRecord) (script : List Nat) :
    grantsScript own ps script = true ↔ own ∉ script ∧ (newStations ps script).length + ps.length ≤ 8 := by
  simp [grantsScript]

theorem mem_newStations (ps : List PeerRecord) (script : List Nat) (n : Nat) :
    n ∈ newStations ps script ↔ n ∈ script ∧ findPeer ps n = none := by
  simp [newStations]

/-- The records are those made for the new stations and those held, which gain the role. -/
theorem mem_addScript (ps : List PeerRecord) (script : List Nat) (r : PeerRecord) :
    r ∈ addScript ps script ↔ (∃ n ∈ newStations ps script, PeerRecord.make n false true = r) ∨
      ∃ q ∈ ps, { q with scriptRole := q.scriptRole || script.contains q.station } = r := by
  have joined := insertPeers_perm (PeerRecord.make · false true) (newStations ps script)
    (ps.map fun q => { q with scriptRole := q.scriptRole || script.contains q.station })
  exact joined.mem_iff.trans (List.mem_append.trans (or_congr List.mem_map List.mem_map))

/-- Each script peer has a record with the role. -/
theorem addScript_covers (ps : List PeerRecord) {script : List Nat} {n : Nat} (named : n ∈ script) :
    ∃ r ∈ addScript ps script, r.station = n ∧ r.scriptRole = true := by
  cases found : findPeer ps n with
  | none => exact ⟨_, (mem_addScript ps script _).mpr (.inl ⟨n, (mem_newStations ps script n).mpr ⟨named, found⟩, rfl⟩), rfl, rfl⟩
  | some q =>
    have station : q.station = n := by simpa using List.find?_some found
    refine ⟨_, (mem_addScript ps script _).mpr (.inr ⟨q, List.mem_of_find?_eq_some found, rfl⟩), station, ?_⟩
    simp [station, named]

/-- A record of a station that had none is a new one of a script peer. -/
theorem addScript_new {ps : List PeerRecord} {script : List Nat} {r : PeerRecord} (mem : r ∈ addScript ps script)
    (unknown : findPeer ps r.station = none) : r = PeerRecord.make r.station false true ∧ r.station ∈ script := by
  rcases (mem_addScript ps script r).mp mem with ⟨n, new, rfl⟩ | ⟨q, held, rfl⟩
  · exact ⟨rfl, ((mem_newStations ps script n).mp new).1⟩
  · exact absurd (List.mem_map.mpr ⟨q, held, rfl⟩) ((findPeer_none_iff ps q.station).mp unknown)

/-! ## The statement -/

/-- A CONVERT of a configured console gets its owner's outcome on the state that has heard it. -/
theorem exec_convert {s : State} {h : CommandHead} (c : s.commanded h) (layout : Byte) (delay : BitVec 16) :
    exec (.convert h layout delay) s =
      .next (((s.heard (Instr.convert h layout delay).frame).ownConvert h layout delay).1.giveOutcome h.sender.station.toNat
        h.tag.toNat ((s.heard (Instr.convert h layout delay).frame).ownConvert h layout delay).2) := by
  have awake : s.inReset = false := c.1.1
  exact (live_of_not_inReset (·.rxConvert h layout delay) awake).trans
    (congrArg _ (State.receiveCommand_of_commanded c 1 (layout :: bytes16 delay) fun t => t.ownConvert h layout delay))

/-- A CONVERT that the judgement refuses has its outcome and no other effect. -/
theorem State.ownConvert_refused {s : State} {h : CommandHead} {layout : Byte} {delay : BitVec 16} {o : CmdOutcome}
    (judged : s.judgeConvert layout.toNat = .inl o) : s.ownConvert h layout delay = (s, o) := by
  unfold State.ownConvert
  rw [judged]

theorem State.ownConvert_armed {s : State} {h : CommandHead} {layout : Byte} {delay : BitVec 16} {slot count : Nat}
    (judged : s.judgeConvert layout.toNat = .inr (slot, count)) : s.ownConvert h layout delay =
      (s.arm layout.toNat slot count h.sender.station.toNat h.tag.toNat delay.toNat, .accepted) := by
  unfold State.ownConvert
  rw [judged]

/-- Settles O39: the judgement is the first condition that fails, then the slot of the layout, then the grant of its peers. -/
theorem convertJudged : Obligations.ConvertJudged := by
  unfold Obligations.ConvertJudged
  intro s h layout delay row lay console answered first stands
  let u := s.heard row.frame
  have refused {o : CmdOutcome} (c : s.commanded h) (judged : u.judgeConvert lay = .inl o) : exec row s = .next (answered o) := by
    rw [exec_convert c, State.ownConvert_refused (s := u) judged]
  have passed (none_ : first = none) : u.judgeConvert lay = u.judgeLayout lay := by
    rw [State.judgeConvert_eq, show u.convertRefusal = none from none_]
    rfl
  refine ⟨fun awake mode => ?_, fun o c fails => refused c ?_, fun c none_ absent => refused c ?_, ?_⟩
  · exact (live_of_not_inReset (·.rxConvert h layout delay) awake).trans
      (congrArg _ (State.receive_unprocessed (snd := h.sender) mode _ _))
  · rw [State.judgeConvert_eq, show u.convertRefusal = some o from fails]
    rfl
  · rw [passed none_, State.judgeLayout, State.findLayout_none (s := u) absent]
  · intro i sl hd c none_ least most slot stood header before script new
    have found : u.findLayout lay = some (i + 1, hd.count) := State.findLayout_some (s := u) least most slot stood header before
    have judged : u.judgeConvert lay =
        if grantsScript s.comm.straps s.peers script then .inr (i + 1, hd.count) else .inl .refusedPeers := by
      rw [passed none_, State.judgeLayout, found]
      rfl
    have grants : grantsScript s.comm.straps s.peers script = true ↔ s.comm.straps ∉ script ∧ new.length + s.peers.length ≤ 8 :=
      grantsScript_iff _ _ _
    refine ⟨fun denies => refused c ?_, fun other fits => ?_⟩
    · refine judged.trans (if_neg fun granted => ?_)
      obtain ⟨other, fits⟩ := grants.mp granted
      exact denies.elim other fun many => Nat.not_lt.mpr fits many
    · rw [if_pos (grants.mpr ⟨other, fits⟩)] at judged
      let t := (u.arm lay (i + 1) hd.count console h.tag.toNat delay.toNat).giveOutcome console h.tag.toNat .accepted
      have run : exec row s = .next t := by rw [exec_convert c, State.ownConvert_armed (s := u) judged]
      have peers : t.peers = addScript s.peers script := rfl
      refine ⟨t, run, rfl, State.giveOutcome_outcome _ _ _ _, State.requestStatus_pending _, fun r mem => ?_,
        fun n named => ?_, fun r mem unknown => ?_⟩
      · exact (mem_addScript _ _ _).mpr (.inr ⟨r, mem, rfl⟩)
      · exact addScript_covers s.peers named
      · exact addScript_new (peers ▸ mem) unknown

end Sys2Proof.Machine
end

-- ==== Proofs: the end of the hold-off ====
section
/-! SETTLES O41. The hold-off's end begins step 0 and finds a script peer's abort, or tests the conditions of the step and goes
through its phases (R123, R126 to R128). -/

namespace Sys2Proof.Machine

/-! ## The abort test (R127) -/

/-- R127: a record that shows ABORTED for the layout while FRESH. -/
theorem State.showsAborted_status (s : State) (r : PeerRecord) : s.showsAborted r = true ↔
    r.freshness = .fresh ∧ ∃ st, r.status = some st ∧ st.seqState = 5 ∧ st.layout = s.seq.layout := by
  cases fresh : r.freshness <;> cases status : r.status <;> simp [State.showsAborted, fresh, status]

/-- R137: a conversion in progress that is ended is ABORTED where it stood. -/
theorem Sequencer.endedFrom.aborted {q r : Sequencer} (h : q.endedFrom r) (converting : q.converting = true) :
    r.state = .aborted ∧ r.layout = q.layout ∧ r.step = q.step ∧ r.phase = .none := by
  unfold Sequencer.endedFrom at h
  rcases (Sequencer.converting_iff q).mp converting with state | state <;> rwa [state] at h

/-- With no axis REQUESTED there is none to stop. -/
theorem State.stopRequested_idle {s : State} (slew : s.seq.slewMove ≠ .requested) (rake : s.seq.rakeMove ≠ .requested) :
    s.stopRequested = s := by
  simp only [State.stopRequested, if_neg slew, if_neg rake]

/-- An abort before any axis is asked leaves the axes and the enable monitor as they were. -/
theorem State.peerAborts_idle {s : State} (converting : s.seq.converting = true) (slew : s.seq.slewMove ≠ .requested)
    (rake : s.seq.rakeMove ≠ .requested) : EndsConversion (s.raiseNotice .peerAborted) s.peerAborts := by
  have still : (s.raiseNotice .peerAborted).stopRequested = s.raiseNotice .peerAborted := State.stopRequested_idle slew rake
  unfold State.peerAborts
  rw [still]
  exact State.seqToAborted_ends _ ((Sequencer.converting_iff _).mp converting)

/-! ## Step 0 (R123, R126) -/

/-- The hold-off over, RUNNING or PAUSED by the enable. -/
def State.heldOff (s : State) : State :=
  { s with seq := { s.seq with state := if s.mon.present then .running else .paused, holdOff := none } }

/-- Step 0 in WAIT_PEERS with the flags of its conditions. -/
def State.firstStep (s : State) (met : List Bool) : State :=
  { s with
    seq := s.heldOff.seq.begins 0 met, bus := s.heldOff.requestStatus.bus
    zones := (s.heldOff.startStep 0).judgeZoneWait.zones }

/-- Step 0 with no condition tested. -/
def State.stepUntested (s : State) : State := s.firstStep ((s.stepAt 0).conds.map fun _ => false)

/-- Step 0 with the conditions that its start finds met. -/
def State.stepTested (s : State) : State := s.firstStep ((s.stepAt 0).conds.map s.condMet)

theorem State.stepUntested_eq (s : State) : (s.heldOff.startStep 0).judgeZoneWait = s.stepUntested := State.judgeZoneWait_eq _

theorem State.stepUntested_testConds (s : State) : s.stepUntested.testConds (fun _ => true) = s.stepTested := by
  have tested := s.heldOff.startStep_testConds 0
  show { (s.heldOff.startStep 0).testConds (fun _ => true) with zones := s.stepUntested.zones } = _
  rw [tested]
  rfl

theorem State.stepTested_rows (s : State) : s.stepTested.zones.rows = s.zones.rows := (State.judgeZoneWait_frame _).rows

/-- R99: in PAUSED the zone wait timer is held. -/
theorem State.firstStep_zones {s : State} (absent : s.mon.present = false) (met : List Bool) :
    (s.firstStep met).zones = s.zones := by
  have paused : (s.heldOff.startStep 0).seq.state = .paused := by
    show (if s.mon.present = true then _ else _) = _
    rw [absent]
    rfl
  have held : (s.heldOff.startStep 0).judgeZoneWait = s.heldOff.startStep 0 := if_pos (.inl paused)
  show (s.heldOff.startStep 0).judgeZoneWait.zones = _
  rw [held]
  rfl

theorem State.firstStep_converting (s : State) (met : List Bool) : (s.firstStep met).seq.converting = true := by
  refine (Sequencer.converting_iff _).mpr ?_
  cases present : s.mon.present
  · exact .inr (if_neg (by simp [present]))
  · exact .inl (if_pos present)

theorem exec_holdOffExpiry {s : State} (awake : s.inReset = false) : exec .holdOffExpiry s = .next s.holdOffExpires :=
  live_of_not_inReset State.holdOffExpires awake

theorem State.holdOffExpires_other {s : State} (other : s.seq.state ≠ .armed) : s.holdOffExpires = s := if_neg other

/-- A script peer that shows ABORTED for the layout. -/
def State.peerAborted (s : State) : Prop := ∃ r ∈ s.peers, r.scriptRole = true ∧ r.freshness = .fresh ∧
  ∃ st, r.status = some st ∧ st.seqState = 5 ∧ st.layout = s.seq.layout

theorem State.peerAborted_iff (s : State) :
    (s.stepUntested.peers.any fun r => r.scriptRole && s.stepUntested.showsAborted r) = true ↔ s.peerAborted := by
  simp only [List.any_eq_true, Bool.and_eq_true, State.showsAborted_status]
  exact .rfl

/-- Log entry 15: the abort test comes first, then the conditions and the phases. -/
theorem State.holdOffExpires_armed {s : State} (armed : s.seq.state = .armed) : s.holdOffExpires =
    if (s.stepUntested.peers.any fun r => r.scriptRole && s.stepUntested.showsAborted r) then s.stepUntested.peerAborts
    else s.stepTested.runPhases := by
  rw [← State.stepUntested_testConds, ← State.stepUntested_eq]
  exact if_pos armed

theorem State.holdOffExpires_aborts {s : State} (armed : s.seq.state = .armed) (aborted : s.peerAborted) :
    s.holdOffExpires = s.stepUntested.peerAborts :=
  (State.holdOffExpires_armed armed).trans (if_pos (s.peerAborted_iff.mpr aborted))

theorem State.holdOffExpires_tests {s : State} (armed : s.seq.state = .armed) (quiet : ¬ s.peerAborted) :
    s.holdOffExpires = s.stepTested.runPhases :=
  (State.holdOffExpires_armed armed).trans (if_neg (mt s.peerAborted_iff.mp quiet))

/-! ## The statement -/

/-- Settles O41: the abort meets a sequencer that has asked no axis; without one step 0 waits, in PAUSED or for its conditions, or
asks the slew. -/
theorem holdOffEnds : Obligations.HoldOffEnds := by
  unfold Obligations.HoldOffEnds
  intro s awake step0 aborted begun
  have tests (armed : s.seq.state = .armed) (quiet : ∀ r ∈ s.peers, ¬ aborted r) :
      exec .holdOffExpiry s = .next s.stepTested.runPhases := by
    rw [exec_holdOffExpiry awake, State.holdOffExpires_tests armed fun ⟨r, mem, shows⟩ => quiet r mem shows]
  have running (present : s.mon.present = true) : s.stepTested.seq.state = .running := if_pos present
  refine ⟨fun other => ?_, fun armed found => ?_, fun armed quiet => ⟨fun absent => ?_, fun present unheard => ?_,
    fun target v present none_ slew rake off unready free neg pos inside => ?_⟩⟩
  · rw [exec_holdOffExpiry awake, State.holdOffExpires_other other]
  · let u := s.stepUntested
    have ends := State.peerAborts_idle (s := u) (s.firstStep_converting _) nofun nofun
    have run : exec .holdOffExpiry s = .next u.peerAborts := by
      rw [exec_holdOffExpiry awake, State.holdOffExpires_aborts armed found]
    obtain ⟨state, layout, step, phase⟩ := ends.seq.aborted (s.firstStep_converting _)
    exact ⟨_, run, state, layout, step, phase, u.peerAborts_fault, ends.slew, ends.rake, ends.mon, u.peerAborts_peers⟩
  · have paused : s.stepTested.seq.state = .paused := if_neg (by simp [absent])
    have waits : s.stepTested.runPhases = s.stepTested := State.runPhases_waits (.inl (by rw [paused]; exact nofun))
    have zones : s.stepTested.zones = s.zones := State.firstStep_zones absent _
    refine ⟨s.stepTested.seq, s.stepTested.bus, ?_, paused, rfl, rfl, rfl, rfl, rfl, rfl, rfl, rfl, rfl, rfl⟩
    rw [tests armed quiet, waits]
    refine congrArg Host.Outcome.next ?_
    show { s with seq := s.stepTested.seq, bus := s.stepTested.bus, zones := s.stepTested.zones } = _
    rw [zones]
  · have waits : s.stepTested.runPhases = s.stepTested := State.runPhases_waitPeers rfl (State.unmet_of_notFresh unheard)
    exact ⟨s.stepTested.seq, s.stepTested.zones, s.stepTested.bus, by rw [tests armed quiet, waits]; rfl, running present, rfl,
      rfl, ⟨rfl, rfl, rfl, rfl, rfl, rfl, rfl, rfl⟩, s.stepTested_rows⟩
  · have met : s.stepTested.seq.met.all id = true := by
      show ((s.stepAt 0).conds.map s.condMet).all id = true
      rw [show (s.stepAt 0).conds = [] from none_]
      rfl
    have asks : s.stepTested.runPhases = s.stepTested.slewAsked target v :=
      State.runPhases_asksSlew (running present) rfl met slew rake off unready free neg pos inside
    let t := s.stepTested.slewAsked target v
    exact ⟨t.seq, t.zones, t.bus, by rw [tests armed quiet, asks]; rfl, running present, rfl, rfl,
      ⟨rfl, rfl, rfl, rfl, rfl, rfl, rfl, rfl⟩, s.stepTested_rows⟩

end Sys2Proof.Machine
end

-- ==== Proofs: a run refused ====
section
/-! SETTLES O43. A JOG or HOME whose conditions fail leaves its owner with the outcome alone (R143, R144). -/

namespace Sys2Proof.Machine

/-! ## The owners' refusals (R143) -/

/-- A JOG that a condition of R143 refuses changes nothing. -/
theorem State.ownJog_refused {s : State} {x : Axis} {d : Dir} {o : CmdOutcome} (h : s.runRefusal x d = some o) (v : Nat) :
    s.ownJog x d v = (s, o) := by
  rw [← State.judgeRun_eq] at h
  simp only [State.ownJog, h]

/-- A HOME is judged in the first direction of its search, and one that a condition of R143 refuses changes nothing. -/
theorem State.ownHome_refused {s : State} {x : Axis} {o : CmdOutcome} (h : s.runRefusal x (s.searchDir x) = some o) :
    s.ownHome x = (s, o) := by
  rw [← State.judgeRun_eq, ← State.firstDir_eq] at h
  simp only [State.ownHome, h]

/-! ## The statement -/

/-- A HOME of a configured console gets its owner's outcome on the state that has heard it. -/
theorem exec_home {s : State} {h : CommandHead} (c : s.commanded h) (x : Axis) :
    let u := s.heard (Instr.home h (axisByte x)).frame
    exec (.home h (axisByte x)) s =
      .next ((u.ownHome x).1.giveOutcome h.sender.station.toNat h.tag.toNat (u.ownHome x).2) := by
  refine (live_of_not_inReset (·.rxHome h (axisByte x)) c.1.1).trans (congrArg _ ?_)
  simp only [State.rxHome, axisOfByte_axisByte, Option.isSome_some]
  exact State.receiveCommand_of_commanded c 3 _ _

/-- Settles O43: the frame heard changes no condition, and the refusal leaves the state that has heard it with the outcome. -/
theorem runsJudged : Obligations.RunsJudged := by
  unfold Obligations.RunsJudged
  intro s h x d speed o commanded answered jog home
  refine ⟨fun refused => ?_, fun refused => ?_⟩
  · rw [exec_jog commanded, State.ownJog_refused (s := s.heard jog.frame) refused]
  · rw [exec_home commanded, State.ownHome_refused (s := s.heard home.frame) refused]

end Sys2Proof.Machine
end

-- ==== Proofs: a JOG_END ====
section
/-! SETTLES O45. A JOG_END for the jogging axis ends the run as the lapse of the enable does (R142, R147); any other changes nothing,
and UNCONFIGURED refuses it as every command (R162). -/

namespace Sys2Proof.Machine

/-! ## A command in UNCONFIGURED (R162) -/

/-- In UNCONFIGURED the target set alone makes a command this station's, and the bus interface refuses it itself. -/
theorem State.receiveCommand_of_unconfigured {s : State} {h : CommandHead} (hears : s.hears h.sender)
    (mode : s.comm.mode = .unconfigured) (free : s.comm.restartPending = false)
    (target : inTargets h.targets s.station = true) (kind : Byte) (args : List Byte) (defined : Bool)
    (owner : State → State × CmdOutcome) :
    s.receiveCommand kind h args defined owner =
      (s.heard (commandFrame kind h args)).giveOutcome h.sender.station.toNat h.tag.toNat .refusedState := by
  let u := s.heard (commandFrame kind h args)
  have addressed : u.addressed h = true := by
    have target' : inTargets h.targets u.station = true := target
    have mode' : u.comm.mode = .unconfigured := mode
    simp [State.addressed, target', mode']
  have refused : u.busRefusal defined = some .refusedState := by
    have free' : u.comm.restartPending = false := free
    have mode' : u.comm.mode = .unconfigured := mode
    simp [State.busRefusal, free', mode']
  refine (State.receive_of_hears hears _ fun t => t.command h defined owner).trans ?_
  simp only [State.command, addressed, refused, if_true, u]

/-! ## The owner's judgement (R147) -/

theorem Run.jogsOn_iff (r : Run) (x : Axis) : r.jogsOn x = true ↔ ∃ d m, r = .jog x d m := by
  cases r <;> simp [Run.jogsOn]

/-- R147: the JOG of the axis ends, and the axis is stopped, as at the lapse of the enable. -/
theorem State.ownJogEnd_ends {s : State} {x : Axis} {d : Dir} {m : JogMode} (operational : s.comm.mode = .operational)
    (jogs : s.mon.run = .jog x d m) : s.ownJogEnd x = (s.endRunStopping, .done) := by
  have ended : s.endRun = { s with mon := { s.mon with run := .none } } := by
    unfold State.endRun
    rw [jogs]
  rw [State.endRunStopping_eq (congrArg Run.axis jogs), ended]
  exact if_pos ⟨operational, (Run.jogsOn_iff _ x).mpr ⟨d, m, jogs⟩⟩

theorem State.ownJogEnd_other {s : State} {x : Axis}
    (other : s.comm.mode ≠ .operational ∨ ∀ d m, s.mon.run ≠ .jog x d m) : s.ownJogEnd x = (s, .done) := by
  refine if_neg fun ⟨operational, jogs⟩ => ?_
  obtain ⟨d, m, run⟩ := (Run.jogsOn_iff _ x).mp jogs
  exact other.elim (· operational) (· d m run)

/-! ## The statement -/

/-- A JOG_END of a configured console gets its owner's outcome on the state that has heard it. -/
theorem exec_jogEnd {s : State} {h : CommandHead} (c : s.commanded h) (x : Axis) :
    let u := s.heard (Instr.jogEnd h (axisByte x)).frame
    exec (.jogEnd h (axisByte x)) s =
      .next ((u.ownJogEnd x).1.giveOutcome h.sender.station.toNat h.tag.toNat (u.ownJogEnd x).2) := by
  refine (live_of_not_inReset (·.rxJogEnd h (axisByte x)) c.1.1).trans (congrArg _ ?_)
  simp only [State.rxJogEnd, axisOfByte_axisByte, Option.isSome_some]
  exact State.receiveCommand_of_commanded c 5 _ _

/-- Settles O45: the jog ends by the stop of its axis, which leaves the fault unit and the sequencer's state; otherwise the outcome
is the whole effect. -/
theorem jogEnds : Obligations.JogEnds := by
  unfold Obligations.JogEnds
  intro s h x d m row
  let u := s.heard row.frame
  have same (y : Axis) : u.axis y = s.axis y := by cases y <;> rfl
  refine ⟨fun commanded operational jogs => ?_, fun commanded other => ?_, fun hears mode free target => ?_⟩
  · have run : u.mon.run.axis = some x := congrArg Run.axis jogs
    let e := u.endRunStopping
    let t := e.giveOutcome h.sender.station.toNat h.tag.toNat .done
    have ends : exec row s = .next t := by
      rw [exec_jogEnd commanded, State.ownJogEnd_ends (s := u) operational jogs]
    have kept (y : Axis) : t.axis y = e.axis y := by cases y <;> rfl
    refine ⟨t, ends, State.endRunStopping_mon run, ?_, ?_, (State.endRunStopping_motionOnly run).fault,
      (State.endRunStopping_marks run).state, State.endRunStopping_stopsOnly run, State.giveOutcome_outcome _ _ _ _⟩
    · rw [kept, ← same]
      exact State.endRunStopping_stops run
    · rw [kept, ← same]
      exact State.endRunStopping_other run
  · rw [exec_jogEnd commanded, State.ownJogEnd_other (s := u) other]
  · exact (live_of_not_inReset (·.rxJogEnd h (axisByte x)) hears.1).trans
      (congrArg _ (State.receiveCommand_of_unconfigured hears mode free target 5 _ _ _))

end Sys2Proof.Machine
end

-- ==== Proofs: frames that are turned away ====
section
/-! SETTLES O8 and O48. What the bus interface does not hand on (R157, R166), and what it turns away of what is handed on: commands
and requests for another station (R162, R164), and those that meet UNCONFIGURED, a pending restart or an undefined byte (R162,
R164, R180). -/

namespace Sys2Proof.Machine

/-! ## A frame row received, well formed or not (R156, R157) -/

theorem live_congr {f g : State → State} {s : State} (h : f s = g s) : live f s = live g s := by
  unfold live
  rw [h]

theorem byte_eq_of_toNat {b : Byte} {n : Nat} (h : b.toNat = n) : b = BitVec.ofNat 8 n := by
  rw [← h, BitVec.ofNat_toNat, BitVec.setWidth_eq]

/-- R164: a request goes by its kind byte, whatever the row it is given as. -/
theorem State.rxByKind_receives (s : State) (kind : Byte) (r : ServiceReq) :
    ∃ owner, s.rxByKind kind r = s.receiveRequest kind r owner := by
  unfold State.rxByKind
  split
  on_goal 16 => exact ⟨_, rfl⟩
  all_goals
    next number =>
    rw [byte_eq_of_toNat number]
    exact ⟨_, rfl⟩

/-- A SERVICE_REQ row is its frame, received and given to an owner (R157, R164). -/
theorem exec_serviceRow {c : Instr} {kind : Byte} {r : ServiceReq} (request : c.serviceReq = some (kind, r)) (s : State) :
    c.sender = some r.sender ∧ c.frame = serviceFrame kind r ∧
      ∃ owner, exec c s = live (·.receiveRequest kind r owner) s := by
  cases c
  case undefinedServiceReq =>
    cases request
    obtain ⟨owner, row⟩ := s.rxByKind_receives kind r
    exact ⟨rfl, rfl, owner, live_congr (f := (·.rxByKind kind r)) row⟩
  all_goals (cases request <;> exact ⟨rfl, rfl, _, rfl⟩)

/-- A frame row is its frame, received from its sender. -/
theorem exec_anyFrameRow {c : Instr} {snd : Sender} (sender : c.sender = some snd) (s : State) :
    ∃ wf handOff, exec c s = live (·.receive c.frame wf snd handOff) s := by
  cases head : c.commandHead with
  | some h =>
    obtain ⟨same, kind, args, defined, owner, frame, row⟩ := exec_commandRow head
    cases same.symm.trans sender
    rw [row, frame]
    exact ⟨_, _, rfl⟩
  | none =>
    cases request : c.serviceReq with
    | some q =>
      obtain ⟨same, frame, owner, row⟩ := exec_serviceRow (kind := q.1) (r := q.2) request s
      cases same.symm.trans sender
      rw [row, frame]
      exact ⟨_, _, rfl⟩
    | none =>
      cases c
      case stopFrame | enableFrame | statusFrame | serviceReplyFrame => cases sender; exact ⟨_, _, rfl⟩
      all_goals simp [Instr.sender, Instr.commandHead, Instr.serviceReq] at sender head request

/-! ## Frames that no block is given (R157, R166) -/

/-- R166: START examines no frame. -/
theorem State.receive_start {s : State} (mode : s.comm.mode = .start) (frame : List Byte) (wf : Bool) (snd : Sender)
    (handOff : State → State) : s.receive frame wf snd handOff = s.heard frame := by
  have mode' : (s.heard frame).comm.mode = .start := mode
  have unexamined : (s.heard frame).examines = false := by
    unfold State.examines
    rw [mode']
  have kept : (s.heard frame).discard = s.heard frame := by
    unfold State.discard
    rw [mode']
  cases wf
  · exact kept
  · exact if_neg (ne_true_of_eq_false unexamined)

/-- R113: a sender with another number, or with this part's unit tag, is no double of this station. -/
theorem State.checkDuplicate_single {s : State} {snd : Sender}
    (single : snd.station.toNat ≠ s.comm.straps ∨ snd.unitTag = s.nv.unitTag) : s.checkDuplicate snd = s :=
  if_neg fun ⟨_, number, tag⟩ => single.elim (· number) tag

/-- R166: ISOLATED examines a good frame and hands it to no block. -/
theorem State.receive_isolated {s : State} {snd : Sender} (mode : s.comm.mode = .isolated)
    (single : snd.station.toNat ≠ s.comm.straps ∨ snd.unitTag = s.nv.unitTag) (frame : List Byte) (handOff : State → State) :
    s.receive frame true snd handOff = s.heard frame := by
  have mode' : (s.heard frame).comm.mode = .isolated := mode
  have examined : (s.heard frame).examines = true := by
    unfold State.examines
    rw [mode']
  show (s.heard frame).sortFrame snd handOff = _
  unfold State.sortFrame
  rw [if_pos examined, State.checkDuplicate_single (s := s.heard frame) single]
  exact if_pos mode'

/-- Settles O8: the mode, or the class of the frame, stands between the frame and every hand-off. -/
theorem receivedAndNotHandedOn : Obligations.ReceivedAndNotHandedOn := by
  unfold Obligations.ReceivedAndNotHandedOn
  intro s c snd requester kind tag outcome data
  refine ⟨fun awake mode isFrame => ?_, fun awake mode wf sender single => ?_, fun hears => ?_⟩
  · obtain ⟨from_, sender⟩ := Option.isSome_iff_exists.mp isFrame
    obtain ⟨wf, handOff, row⟩ := exec_anyFrameRow sender s
    rw [row, live_of_not_inReset _ awake, State.receive_start mode]
  · obtain ⟨handOff, row⟩ := exec_frameRow sender wf
    rw [row, live_of_not_inReset _ awake, State.receive_isolated mode single]
  · intro r wf
    have fits : decide (data.length ≤ 36) = true := wf
    have row : exec r s = live (·.receive r.frame (decide (data.length ≤ 36)) snd id) s := rfl
    rw [row, live_of_not_inReset _ hears.1, fits]
    exact congrArg _ (State.receive_of_hears hears r.frame id)

/-! ## A command turned away (R162, R180) -/

theorem inTargets_iff (targets : BitVec 32) (n : Nat) :
    inTargets targets n = true ↔ n ≠ 0 ∧ targets.getLsbD n = true := by
  simp [inTargets]

/-- R162: the target set names this station, and the sender is a configured console where there are any. -/
theorem State.addressed_iff (s : State) (h : CommandHead) :
    s.addressed h = true ↔ (s.comm.straps ≠ 0 ∧ h.targets.getLsbD s.comm.straps = true) ∧
      (s.comm.mode = .unconfigured ∨ h.sender.station.toNat ∈ s.consoles) := by
  simp [State.addressed, State.fromConsole, State.station, inTargets_iff]

theorem State.command_unaddressed {s : State} {h : CommandHead} (away : ¬ s.addressed h = true) (defined : Bool)
    (owner : State → State × CmdOutcome) : s.command h defined owner = s := if_neg away

/-- R162, R165: a command that the bus interface refuses gets that outcome, and no more. -/
theorem State.command_refused {s : State} {h : CommandHead} {defined : Bool} {o : CmdOutcome} (addressed : s.addressed h = true)
    (refused : s.busRefusal defined = some o) (owner : State → State × CmdOutcome) :
    s.command h defined owner = s.giveOutcome h.sender.station.toNat h.tag.toNat o := by
  simp only [State.command, addressed, refused, if_true]

theorem axisOfByte_undefined {a : Byte} (h : 1 < a.toNat) : axisOfByte a = none := by
  unfold axisOfByte
  rw [if_neg (by rintro rfl; simp at h), if_neg (by rintro rfl; simp at h)]

theorem dirOfByte_undefined {d : Byte} (h : 1 < d.toNat) : dirOfByte d = none := by
  unfold dirOfByte
  rw [if_neg (by rintro rfl; simp at h), if_neg (by rintro rfl; simp at h)]

/-- R162: with an undefined axis or direction byte the bus interface is told so. -/
theorem exec_undefinedBytes {c : Instr} {h : CommandHead} {a d : Byte} {v : BitVec 24}
    (undefined : 1 < a.toNat ∨ (1 < d.toNat ∧ ∃ y z, c = .jog h y d z))
    (row : c = .home h a ∨ c = .jogEnd h a ∨ c = .jog h a d v) :
    ∃ kind args owner, c.frame = commandFrame kind h args ∧
      ∀ s, exec c s = live (·.receiveCommand kind h args false owner) s := by
  rcases row with rfl | rfl | rfl
  · have none_ := axisOfByte_undefined (undefined.resolve_right nofun)
    exact ⟨3, [a], _, rfl, fun s => live_congr (f := (·.rxHome h a)) (by simp only [State.rxHome, none_]; rfl)⟩
  · have none_ := axisOfByte_undefined (undefined.resolve_right nofun)
    exact ⟨5, [a], _, rfl, fun s => live_congr (f := (·.rxJogEnd h a)) (by simp only [State.rxJogEnd, none_]; rfl)⟩
  · have none_ : ((axisOfByte a).isSome && (dirOfByte d).isSome) = false := by
      rcases undefined with axis | ⟨dir, -⟩
      · rw [axisOfByte_undefined axis]; rfl
      · rw [dirOfByte_undefined dir]; exact Bool.and_false _
    exact ⟨4, a :: d :: bytes24 v, _, rfl, fun s => live_congr (f := (·.rxJog h a d v)) (by
      simp only [State.rxJog, none_]
      rfl)⟩

/-! ## A request turned away (R164, R180) -/

/-- R164: a request for another station, or with no place FREE, is not taken. -/
theorem State.service_untaken {s : State} {r : ServiceReq} (away : r.target.toNat ≠ s.comm.straps ∨ s.bus.freePlace = none)
    (kind : Byte) (owner : State → State × Answer) : s.service kind r owner = s := by
  unfold State.service
  split
  · next here =>
    have full := away.resolve_left (not_not.mpr here)
    rw [full]
  · rfl

/-- R180: with a restart pending a request is answered BUSY in the place it took. -/
theorem State.service_restarting {s : State} {r : ServiceReq} {n : Nat} (target : r.target.toNat = s.comm.straps)
    (free : s.bus.freePlace = some n) (restart : s.comm.restartPending = true) (kind : Byte) (owner : State → State × Answer) :
    (s.heard (serviceFrame kind r)).service kind r owner = s.replied kind r n 2 [] := by
  have free' : (s.heard (serviceFrame kind r)).bus.freePlace = some n := free
  have restart' : (s.heard (serviceFrame kind r)).comm.restartPending = true := restart
  have here : r.target.toNat = (s.heard (serviceFrame kind r)).station := target
  simp only [State.service, free', restart', here, if_true]
  rw [← restart']
  exact s.asked_reply kind r n .busy []

/-! ## The statement -/

/-- Settles O48: whatever the owner, the addressing and the refusals of the bus interface come before it. -/
theorem turnedAway : Obligations.TurnedAway := by
  unfold Obligations.TurnedAway
  intro s c h k r n answered named
  refine ⟨fun head hears => ?_, fun request hears fits => ?_⟩
  · obtain ⟨-, kind, args, defined, owner, frame, row⟩ := exec_commandRow head
    have run : exec c s = .next ((s.heard c.frame).command h defined owner) := by
      rw [row, live_of_not_inReset _ hears.1, frame]
      exact congrArg _ (State.receive_of_hears hears _ _)
    have addressed := (s.heard c.frame).addressed_iff h
    refine ⟨fun other => ?_, fun mode foreign => ?_, fun mode here free => ?_, fun known here restart => ?_,
      fun a d v commanded undefined bytes => ?_⟩
    · rw [run, State.command_unaddressed fun here => other (addressed.mp here).1]
    · rw [run, State.command_unaddressed fun here => (addressed.mp here).2.elim mode foreign]
    · have refused : (s.heard c.frame).busRefusal defined = some .refusedState := by
        have mode' : (s.heard c.frame).comm.mode = .unconfigured := mode
        have free' : (s.heard c.frame).comm.restartPending = false := free
        simp [State.busRefusal, mode', free']
      rw [run, State.command_refused (addressed.mpr ⟨here, .inl mode⟩) refused]
    · have refused : (s.heard c.frame).busRefusal defined = some .refusedBusy := if_pos restart
      rw [run, State.command_refused (addressed.mpr ⟨here, known⟩) refused]
    · obtain ⟨-, mode, free, target, console⟩ := commanded
      obtain ⟨kind, args, owner, frame, row⟩ := exec_undefinedBytes undefined bytes
      have refused : (s.heard c.frame).busRefusal false = some .refusedState := by
        have free' : (s.heard c.frame).comm.restartPending = false := free
        simp [State.busRefusal, free']
      have here := addressed.mpr ⟨(inTargets_iff _ _).mp target, .inr console⟩
      rw [row, live_of_not_inReset _ hears.1]
      refine congrArg _ ((State.receive_of_hears hears _ _).trans ?_)
      rw [← frame]
      exact State.command_refused here refused owner
  · obtain ⟨-, frame, owner, row⟩ := exec_serviceRow request s
    have run : exec c s = .next ((s.heard (serviceFrame k r)).service k r owner) := by
      rw [row, live_of_not_inReset _ hears.1]
      unfold State.receiveRequest
      rw [fits, State.receive_of_hears hears]
    refine ⟨fun away => ?_, fun target free restart => ?_⟩
    · rw [run, frame, State.service_untaken (s := s.heard (serviceFrame k r)) away]
    · rw [run, State.service_restarting target free restart]

end Sys2Proof.Machine
end

-- ==== Proofs: the STOP frame and the STOP line ====
section
/-! SETTLES O32. A STOP frame and the assertion of the STOP line are the reactions to a stop cause (R163, R175), which latch
nothing; every other change of the line is a change of its level (R170, R175). -/

namespace Sys2Proof.Machine

/-- The reactions to a stop cause leave the fault unit. -/
theorem State.reactions_fault (s : State) (k : StopKind) (o : Option CmdOutcome) :
    (((s.stopBoth k).endConversion o).endRun).fault = s.fault := by
  rw [State.endRun_fault, State.endConversion_fault, State.stopBoth_fault]

/-- R163: a conversion that is ended without an outcome leaves the last-outcome slot. -/
theorem State.endConversion_none_outcome (s : State) : (s.endConversion none).bus.outcome = s.bus.outcome := by
  by_cases armed : s.seq.state = .armed
  · have idle : s.endConversion none = s.seqToIdle := by
      unfold State.endConversion
      rw [armed]
      cases s.seq.armed <;> rfl
    rw [idle]
    exact State.requestStatus_outcome _
  · exact State.endConversion_outcome_kept armed none

/-- R163: the hand-offs of a STOP frame give no command an outcome. -/
theorem State.stopTaken_outcome (s : State) : s.stopTaken.bus.outcome = s.bus.outcome := by
  unfold State.stopTaken
  rw [State.endRun_bus, State.endConversion_none_outcome, (s.stopBoth_motionOnly .controlled).bus]

theorem State.lineAsserts_operational {s : State} (mode : s.comm.mode = .operational) (released : s.fault.lineAsserted = false) :
    s.lineAsserts = ({ s with fault := { s.fault with lineAsserted := true } } : State).lineReactions := by
  unfold State.lineAsserts
  rw [if_neg (ne_true_of_eq_false released)]
  exact if_pos mode

/-- R175: a line that was ASSERTED before, or that is met in another mode, has no reactions. -/
theorem State.lineAsserts_level {s : State} (h : s.comm.mode ≠ .operational ∨ s.fault.lineAsserted = true) :
    s.lineAsserts = { s with fault := { s.fault with lineAsserted := true } } := by
  unfold State.lineAsserts
  split
  · next asserted => rw [← asserted]
  · next released => exact if_neg (h.resolve_right released)

/-- Settles O32: what the reactions of the frame and of the line leave, and the two levels of the line. -/
theorem stopsTaken : Obligations.StopsTaken := by
  unfold Obligations.StopsTaken
  intro s snd line
  refine ⟨fun hears => ?_, fun awake mode released => ?_, fun awake level => ?_, fun awake quiet => ?_, fun awake driven => ?_⟩
  · let u := s.heard (frameBytes 0#3 snd [])
    have reacts : Reacts .controlled u u.stopTaken := u.reactions_react .controlled none
    have run : exec (.stopFrame snd) s = .next u.stopTaken :=
      (live_of_not_inReset (·.rxStop snd) hears.1).trans (congrArg _ (State.receive_of_hears hears _ _))
    exact ⟨_, run, (reacts.axis .slew).stoppedBy, (reacts.axis .rake).stoppedBy, reacts.seq, reacts.mon,
      u.reactions_fault _ _, u.stopTaken_outcome, reacts.stopsOnly⟩
  · let u := line s true
    have reacts : Reacts .quick u u.lineReactions := u.lineReactions_react
    have run : exec .stopLineAsserted s = .next u.lineReactions :=
      (live_of_not_inReset _ awake).trans (congrArg _ (State.lineAsserts_operational mode released))
    have beside := u.reactions_beside .quick (some .refusedStopLine)
    exact ⟨_, run, (reacts.axis .slew).stoppedBy, (reacts.axis .rake).stoppedBy, reacts.seq, reacts.mon,
      u.reactions_fault _ _, reacts.stopsOnly, fun c n => beside.outcome c n _ rfl⟩
  · exact (live_of_not_inReset _ awake).trans (congrArg _ (State.lineAsserts_level level))
  · exact (live_of_not_inReset State.lineReleases awake).trans (congrArg _ (if_neg (ne_true_of_eq_false quiet)))
  · exact (live_of_not_inReset State.lineReleases awake).trans (congrArg _ (if_pos driven))

end Sys2Proof.Machine
end

-- ==== Proofs: the status schedule and the silence timer ====
section
/-! SETTLES O12. A due time of the status schedule (R160), and the report of a silence timer that reaches 250 ms (R161, R167): the
orders of a report ask for a status, which starts the timer only where it stands still, so it stands reported after them. -/

namespace Sys2Proof.Machine

/-! ## The silence timer starts (R161) -/

theorem Bus.sendable_iff (b : Bus) :
    b.sendable = true ↔ (b.statusPending = true ∧ b.firstDue = true) ∨ b.readyOrder ≠ [] := by
  simp [Bus.sendable]

/-- R161: with a frame to send, a timer that stands still starts from zero. -/
theorem Bus.startSilence_sendable {b : Bus} (h : b.sendable = true) :
    b.startSilence = { b with silence := if b.silence = .stopped then .running 0 else b.silence } := by
  unfold Bus.startSilence
  by_cases stopped : b.silence = .stopped
  · rw [if_pos ⟨h, stopped⟩, if_pos stopped]
  · rw [if_neg (stopped ·.2), if_neg stopped]

theorem Bus.startSilence_of_not_sendable {b : Bus} (h : ¬ b.sendable = true) : b.startSilence = b := if_neg (h ·.1)

/-- R160: a due time makes a status pending, and there is then a frame to send. -/
theorem State.dueTime_eq {s : State} (sends : s.sends = true) (due : s.bus.nextDue.isSome = true) :
    s.dueTime = { s with bus := { s.bus with
      statusPending := true, firstDue := true, nextDue := some 25
      silence := if s.bus.silence = .stopped then .running 0 else s.bus.silence } } := by
  unfold State.dueTime
  rw [if_pos ⟨sends, due⟩, Bus.startSilence_sendable ((Bus.sendable_iff _).mpr (.inl ⟨rfl, rfl⟩))]

/-! ## A timer that does not stand still goes on (R161) -/

/-- Going from `s` to `t` leaves a silence timer that does not stand still. -/
def KeepsSilence (s t : State) : Prop := s.bus.silence ≠ .stopped → t.bus.silence = s.bus.silence

theorem KeepsSilence.trans {s t u : State} (h : KeepsSilence s t) (k : KeepsSilence t u) : KeepsSilence s u :=
  fun e => (k (by rw [h e]; exact e)).trans (h e)

theorem KeepsSilence.ofSame {s t : State} (h : t.bus.silence = s.bus.silence) : KeepsSilence s t := fun _ => h

theorem MotionOnly.keepsSilence {s t : State} (h : MotionOnly s t) : KeepsSilence s t := .ofSame (by rw [h.bus])

/-- A request for a status starts the timer only where it stands still. -/
theorem State.requestStatus_keepsSilence (s : State) : KeepsSilence s s.requestStatus := by
  intro running
  simp only [State.requestStatus, Bus.startSilence, running, and_false, if_false, ite_self]

theorem State.keepsSilence_of_request {s t : State} (h : t.bus.silence = s.bus.silence) : KeepsSilence s t.requestStatus :=
  (KeepsSilence.ofSame h).trans t.requestStatus_keepsSilence

theorem State.endConversion_keepsSilence (s : State) (o : Option CmdOutcome) : KeepsSilence s (s.endConversion o) := by
  have idle : KeepsSilence s s.seqToIdle := State.keepsSilence_of_request rfl
  rcases s.seq.state_cases with ease | armed | converting
  · rw [State.endConversion_atEase ease]
    exact .ofSame rfl
  · rcases State.endConversion_armed armed o with e | ⟨c, n, q, e⟩ <;> rw [e]
    · exact idle
    · exact idle.trans (State.keepsSilence_of_request rfl)
  · rw [State.endConversion_converting converting, State.seqToAborted, State.judgeZoneWait_eq]
    exact State.keepsSilence_of_request rfl

theorem State.latched_keepsSilence (s : State) (k : FaultKind) (f : FaultFields) : KeepsSilence s (s.latched k f) := by
  have cleared (t : State) : KeepsSilence t (t.clearSent k) := by
    unfold State.clearSent
    split <;> exact .ofSame rfl
  refine KeepsSilence.trans ?_ (cleared _)
  unfold State.latch
  split
  · exact State.keepsSilence_of_request rfl
  · split
    · exact .ofSame rfl
    · exact State.keepsSilence_of_request rfl

theorem State.report_keepsSilence (s : State) {k : FaultKind} (f : FaultFields) (hk : k ≠ .duplicateStation) :
    KeepsSilence s (s.report k f) :=
  (((s.latched_keepsSilence k f).trans (State.stopBoth_motionOnly _ .quick).keepsSilence).trans
    (State.endConversion_keepsSilence _ _)).trans
      ((State.endRun_motionOnly _).keepsSilence.trans (s.report_motionOnly f hk).keepsSilence)

/-! ## BUS_SILENT -/

/-- R161: the running timer stands reported, and BUS_SILENT is reported. -/
theorem State.silenceEnds_running {s : State} {n : Nat} (running : s.bus.silence = .running n) :
    s.silenceEnds = ({ s with bus := { s.bus with silence := .reported } } : State).report .busSilent FaultFields.none := by
  unfold State.silenceEnds
  rw [running]

theorem State.silenceEnds_other {s : State} (other : ∀ m, s.bus.silence ≠ .running m) : s.silenceEnds = s := by
  unfold State.silenceEnds
  split
  · next m running => exact absurd running (other m)
  · rfl
  · rfl

/-- R170: a kind that is no STOP_ALL kind never starts the drive of the STOP line. -/
theorem State.report_drivesStop {s : State} {k : FaultKind} (single : k.stopAll = false) (line : s.lineDriveOk)
    (f : FaultFields) : (s.report k f).fault.drivesStop = s.fault.drivesStop := by
  have held (j : FaultKind) : j ∈ (s.report k f).fault.held ↔ j = k ∨ j ∈ s.fault.held := by
    rw [State.report_fault, State.clearSent_held]
    exact s.mem_latch_held k j f
  rw [((s.report_calm k f).line line).1, line.1, Bool.eq_iff_iff, List.any_eq_true, List.any_eq_true]
  constructor
  · rintro ⟨j, here, stops⟩
    refine ⟨j, ((held j).mp here).resolve_left ?_, stops⟩
    rintro rfl
    exact Bool.noConfusion (single.symm.trans stops)
  · rintro ⟨j, here, stops⟩
    exact ⟨j, (held j).mpr (.inr here), stops⟩

/-- R167: the report of BUS_SILENT clears the sent-since-silence flag. -/
theorem State.report_busSilent_sent (s : State) (f : FaultFields) :
    (s.report .busSilent f).fault.sentSinceSilence = false := by
  rw [State.report_fault, State.clearSent_fault]
  exact Bool.and_false _

/-- Settles O12: the due time and the report by the lemmas above, what the report leaves by the reactions of every report. -/
theorem scheduleAndSilence : Obligations.ScheduleAndSilence := by
  unfold Obligations.ScheduleAndSilence
  intro s n awake
  refine ⟨fun sends due => ?_, fun running line => ?_, fun other => ?_⟩
  · exact (live_of_not_inReset _ awake).trans (congrArg _ (State.dueTime_eq sends due))
  · let u : State := { s with bus := { s.bus with silence := .reported } }
    have run : exec .busSilent s = .next (u.report .busSilent .none) :=
      (live_of_not_inReset _ awake).trans (congrArg _ (State.silenceEnds_running running))
    have reported : (u.report .busSilent .none).bus.silence = .reported := u.report_keepsSilence _ (by decide) Silence.noConfusion
    exact ⟨_, run, reported, u.report_held _ _, u.report_busSilent_sent _,
      State.report_drivesStop (s := u) rfl line _, fun empty => ⟨_, u.report_record _ _ empty, rfl, rfl⟩,
      (u.report_reacts _ _ (by decide)).stopsOnly⟩
  · exact (live_of_not_inReset _ awake).trans (congrArg _ (State.silenceEnds_other other))

end Sys2Proof.Machine
end

-- ==== Proofs: a station that drives the line ====
section
/-! SUPPORT. A station that is SENDING and reads back each bit as it drives it (R158): the bits go by, its receiver takes the
characters (R154, R155), and where the bits end the frame is sent. -/

namespace Sys2Proof.Machine

/-- The state SENDING `f`, bit `n` of it next, with its receiver in `rx`. -/
def State.driving (s : State) (src : TxSource) (f : List Byte) (n : Nat) (rx : Receiver) : State :=
  { s with bus := { s.bus with tx := .sending src f n, rx := rx } }

/-- A station that is SENDING `f` reads back a stretch of the line without a report, its receiver going from `rx` to `after` and
its bit position from `n` to `m`, where the frame is sent if it has no more bits. -/
def Drives (src : TxSource) (f : List Byte) (rx : Receiver) (n : Nat) (es : List LineEvent) (after : Receiver) (m : Nat) : Prop :=
  ∀ s : State, (s.driving src f n rx).lineEvents es = (s.driving src f m after).checkSent

/-! ## Its events -/

/-- With a bit left to drive the frame is not sent yet. -/
theorem State.checkSent_driving (s : State) {src : TxSource} {f : List Byte} {n : Nat} (rx : Receiver)
    (left : (frameBits f).drop n ≠ []) : (s.driving src f n rx).checkSent = s.driving src f n rx := by
  have more : ¬ (frameBits f).length ≤ n := fun past => left (List.drop_eq_nil_of_le past)
  exact if_neg more

section
variable {src : TxSource} {f : List Byte} {rx mid after : Receiver} {n m k : Nat} {es fs : List LineEvent}

theorem Drives.nil (left : (frameBits f).drop n ≠ []) : Drives src f rx n [] rx n :=
  fun s => (s.checkSent_driving rx left).symm

theorem Drives.append (h : Drives src f rx n es mid m) (left : (frameBits f).drop m ≠ [])
    (g : Drives src f mid m fs after k) : Drives src f rx n (es ++ fs) after k := by
  intro s
  rw [State.lineEvents_append, h s, s.checkSent_driving mid left, g s]

/-- R158: a bit read as it is driven goes by. -/
theorem Drives.sample {l : Bool} {rest : List Bool} (bits : (frameBits f).drop n = l :: rest)
    (taken : rx.sample l = (after, .none)) : Drives src f rx n [.sample l] after (n + 1) := by
  intro s
  have driven : (frameBits f)[n]? = some l := by
    rw [← Nat.add_zero n, ← List.getElem?_drop, bits]
    rfl
  show (s.driving src f n rx).lineEvent (.sample l) = _
  have back : (s.driving src f n rx).readBack (.sample l) = s.driving src f (n + 1) rx :=
    State.compareBit_agrees (s := s.driving src f n rx) rfl driven
  unfold State.lineEvent
  rw [back]
  show (State.takeReport ((s.driving src f (n + 1) rx).withRx (rx.sample l).1) (rx.sample l).2).checkSent = _
  rw [taken]
  rfl

/-- R155: the start edge of the next character of the station's own frame. -/
theorem Drives.edge (between : rx.state = .between) (time : Nat)
    (soon : time - rx.lastEdge ≤ 15) :
    Drives src f rx n [.edge time] { rx with state := .startCheck, lastEdge := time, bits := [] } n := by
  intro s
  have taken : rx.edge true time = ({ rx with state := .startCheck, lastEdge := time, bits := [] }, .none) := by
    unfold Receiver.edge
    rw [between]
    simp only [soon, if_true, Receiver.startEdge, Bool.and_true]
  show (State.takeReport ((s.driving src f n rx).withRx (rx.edge true time).1) (rx.edge true time).2).checkSent = _
  rw [taken]
  rfl

/-! ## A character of its own (R154) -/

/-- R154: the data bits it drives are sampled in their order. -/
theorem Drives.bits (data : rx.state = .data) (bs : List Bool) (room : rx.bits.length + bs.length ≤ 8) {rest : List Bool}
    (driven : (frameBits f).drop n = bs ++ rest) (more : rest ≠ []) :
    Drives src f rx n (bs.map .sample) { rx with bits := rx.bits ++ bs } (n + bs.length) := by
  induction bs generalizing rx n with
  | nil => simpa using Drives.nil (src := src) (rx := rx) (by rw [driven]; exact more)
  | cons b bs ih =>
    rw [List.length_cons] at room
    have sampled : rx.sample b = ({ rx with bits := rx.bits ++ [b] }, .none) := by
      unfold Receiver.sample
      rw [data]
      exact if_pos (by omega)
    have tail : (frameBits f).drop (n + 1) = bs ++ rest := by
      rw [← List.drop_drop, driven]
      rfl
    have others := ih (rx := { rx with bits := rx.bits ++ [b] }) (n := n + 1) data
      (by simp only [List.length_append, List.length_singleton]; omega) tail
    have left : (frameBits f).drop (n + 1) ≠ [] := by
      rw [tail]
      exact List.append_ne_nil_of_right_ne_nil _ more
    have all := (Drives.sample (src := src) driven sampled).append left others
    rw [List.append_assoc] at all
    simpa [Nat.add_assoc, Nat.add_comm 1] using all

/-- R154: after the start bit of a character its first data bits are in the receiver. -/
theorem Drives.startBits (edge : rx.state = .startCheck) (bs : List Bool) (room : bs.length ≤ 8) {rest : List Bool}
    (driven : (frameBits f).drop n = false :: (bs ++ rest)) (more : rest ≠ []) :
    Drives src f rx n ((false :: bs).map .sample) { rx with state := .data, bits := bs } (n + 1 + bs.length) := by
  have start : rx.sample false = ({ rx with state := .data, bits := [] }, .none) := by
    unfold Receiver.sample
    rw [edge]
    rfl
  have tail : (frameBits f).drop (n + 1) = bs ++ rest := by
    rw [← List.drop_drop, driven]
    rfl
  have left : (frameBits f).drop (n + 1) ≠ [] := by
    rw [tail]
    exact List.append_ne_nil_of_right_ne_nil _ more
  have data := Drives.bits (src := src) (rx := { rx with state := .data, bits := [] }) rfl bs (by simpa using room) tail more
  exact (Drives.sample driven start).append left data

/-- R154: with its stop bit a character is in the buffer, and the receiver waits in BETWEEN. -/
theorem Drives.character (edge : rx.state = .startCheck) (room : rx.buffer.length < 46) (b : Byte) {rest : List Bool}
    (driven : (frameBits f).drop n = characterBits b ++ rest) :
    Drives src f rx n ((characterBits b).map .sample)
      { rx with state := .between, recessive := 1, buffer := rx.buffer ++ [b], bits := [] } (n + 10) := by
  have data := Drives.startBits (src := src) edge (bitsOf b) (Nat.le_refl 8) (rest := true :: rest)
    (by rw [driven]; simp [characterBits]) (List.cons_ne_nil _ _)
  have tail : (frameBits f).drop (n + 9) = true :: rest := by
    rw [← List.drop_drop, driven]
    rfl
  have stop : ({ rx with state := .data, bits := bitsOf b } : Receiver).sample true =
      ({ rx with state := .between, recessive := 1, buffer := rx.buffer ++ [b], bits := [] }, .none) := by
    have eight : ¬ (bitsOf b).length < 8 := by simp [bitsOf]
    have fits : ¬ Config.maxChars ≤ rx.buffer.length := by simpa [Config.maxChars] using room
    simp only [Receiver.sample]
    rw [if_neg eight, if_neg (by decide), if_neg fits, byteOfBits_bitsOf]
  have all := data.append (by rw [show n + 1 + (bitsOf b).length = n + 9 from rfl, tail]; exact List.cons_ne_nil _ _)
    (Drives.sample tail stop)
  rwa [← List.map_singleton, ← List.map_append] at all

end

/-! ## Its frame (R155) -/

@[simp] theorem frameBits_append (f g : List Byte) : frameBits (f ++ g) = frameBits f ++ frameBits g := List.flatMap_append

@[simp] theorem frameBits_length (f : List Byte) : (frameBits f).length = 10 * f.length := by
  induction f with
  | nil => rfl
  | cons b f ih =>
    show (characterBits b ++ frameBits f).length = _
    rw [List.length_append, ih, List.length_cons, show (characterBits b).length = 10 from rfl]
    omega

/-- The events of a frame up to the start edge of the character that follows `chars`. -/
def startEvents (chars : List Byte) : List LineEvent :=
  frameEvents chars ++ if chars.length = 0 then [] else [.edge (10 * chars.length)]

theorem frameEvents_append (chars more : List Byte) :
    frameEvents (chars ++ more) = frameEvents chars ++ (more.mapIdx fun i => characterEvents (i + chars.length)).flatten := by
  unfold frameEvents
  rw [List.mapIdx_append, List.flatten_append]

theorem frameEvents_cons (chars : List Byte) (b : Byte) (more : List Byte) : ∃ later,
    frameEvents (chars ++ b :: more) = startEvents chars ++ (characterBits b).map .sample ++ later := by
  refine ⟨(more.mapIdx fun i => characterEvents (i + 1 + chars.length)).flatten, ?_⟩
  rw [frameEvents_append, List.mapIdx_cons, List.flatten_cons, Nat.zero_add]
  unfold characterEvents startEvents
  simp only [List.append_assoc]

theorem frameEvents_concat (chars : List Byte) (b : Byte) :
    frameEvents (chars ++ [b]) = startEvents chars ++ (characterBits b).map .sample := by
  rw [frameEvents_append]
  unfold startEvents
  simp [characterEvents]

/-- The receiver in START_CHECK of the character that follows `chars` of the station's own frame. -/
def Receiver.ownStart (chars : List Byte) : Receiver where
  state := .startCheck
  recessive := if chars.length = 0 then 11 else 1
  buffer := chars
  lastEdge := 10 * chars.length
  bits := []
  own := true

/-- The receiver in BETWEEN after the characters `chars` of the station's own frame. -/
def Receiver.ownMid (chars : List Byte) : Receiver where
  state := .between
  recessive := 1
  buffer := chars
  lastEdge := 10 * (chars.length - 1)
  bits := []
  own := true

/-- R154: a further character of the station's own frame. -/
theorem Drives.ownCharacter {src : TxSource} {f chars : List Byte} (b : Byte) (room : chars.length < 46) {rest : List Bool}
    (driven : frameBits f = frameBits (chars ++ [b]) ++ rest) :
    Drives src f (.ownStart chars) (10 * chars.length) ((characterBits b).map .sample) (.ownMid (chars ++ [b]))
      (10 * (chars ++ [b]).length) := by
  have bits : (frameBits f).drop (10 * chars.length) = characterBits b ++ rest := by
    rw [driven, frameBits_append, List.append_assoc, List.drop_left' (frameBits_length chars)]
    simp [frameBits]
  have all := Drives.character (src := src) (rx := .ownStart chars) rfl room b bits
  simpa [Receiver.ownStart, Receiver.ownMid, Nat.mul_add] using all

/-- R155: up to the start edge of the character that follows `chars`. -/
theorem Drives.toStart {src : TxSource} {f : List Byte} (chars : List Byte) (room : chars.length < 46) {rest : List Bool}
    (driven : frameBits f = frameBits chars ++ rest) (more : rest ≠ []) :
    Drives src f (.ownStart []) 0 (startEvents chars) (.ownStart chars) (10 * chars.length) := by
  have left (as : List Byte) (bs : List Bool) (h : frameBits f = frameBits as ++ bs) (ne : bs ≠ []) :
      (frameBits f).drop (10 * as.length) ≠ [] := by
    rwa [h, List.drop_left' (frameBits_length as)]
  induction chars using List.reverseRecOn generalizing rest with
  | nil => exact Drives.nil (left [] rest driven more)
  | append_singleton chars b ih =>
    rw [List.length_append, List.length_singleton] at room
    have driven' : frameBits f = frameBits chars ++ (characterBits b ++ rest) := by
      rw [driven, frameBits_append, List.append_assoc]
      simp [frameBits]
    have ne : characterBits b ++ rest ≠ [] := List.append_ne_nil_of_right_ne_nil _ more
    have before := ih (by omega) driven' ne
    have character := Drives.ownCharacter (src := src) b (by omega) driven
    have soon : 10 * (chars ++ [b]).length - (Receiver.ownMid (chars ++ [b])).lastEdge ≤ 15 := by
      simp only [Receiver.ownMid, List.length_append, List.length_singleton]
      omega
    have edge := Drives.edge (src := src) (f := f) (n := 10 * (chars ++ [b]).length) (rx := .ownMid (chars ++ [b])) rfl _ soon
    have all := (before.append (left _ _ driven' ne) character).append (left _ _ driven more) edge
    have events : startEvents (chars ++ [b]) =
        startEvents chars ++ (characterBits b).map .sample ++ [.edge (10 * (chars ++ [b]).length)] := by
      rw [← frameEvents_concat]
      simp [startEvents]
    rw [events]
    simpa [Receiver.ownStart, Receiver.ownMid] using all

/-- R158: every bit of the frame read back as driven. -/
theorem Drives.frame (src : TxSource) {f : List Byte} (least : 1 ≤ f.length) (most : f.length ≤ 46) :
    Drives src f (.ownStart []) 0 (frameEvents f) (.ownMid f) (10 * f.length) := by
  obtain ⟨chars, b, rfl⟩ : ∃ chars b, f = chars ++ [b] :=
    ⟨f.dropLast, f.getLast (List.ne_nil_of_length_pos least), (List.dropLast_append_getLast _).symm⟩
  rw [List.length_append, List.length_singleton] at most
  have bits : frameBits (chars ++ [b]) = frameBits chars ++ characterBits b := by
    rw [frameBits_append]
    simp [frameBits]
  have before := Drives.toStart (src := src) chars (by omega) bits (List.cons_ne_nil _ _)
  have character := Drives.ownCharacter (src := src) (f := chars ++ [b]) b (by omega) (List.append_nil _).symm
  rw [frameEvents_concat]
  refine before.append ?_ character
  rw [bits, List.drop_left' (frameBits_length chars)]
  exact List.cons_ne_nil _ _

end Sys2Proof.Machine
end

-- ==== Proofs: the transmitter starts, ends and withdraws ====
section
/-! SETTLES O10 and O11. What a start sends (R158, R159), what a frame sent to its end leaves (R159, R161, R167), and what a
withdrawal leaves (R158, R161). -/

namespace Sys2Proof.Machine

/-! ## A start (R158, R159) -/

theorem Receiver.atIdle_iff (rx : Receiver) : rx.atIdle = true ↔ rx.state = .hunting ∧ 11 ≤ rx.recessive := by
  simp [Receiver.atIdle]

/-- R158: before the line is idle nothing starts. -/
theorem State.startTransmit_busy {s : State} (busy : s.bus.rx.state ≠ .hunting ∨ s.bus.rx.recessive < 11) :
    s.startTransmit = s := by
  refine if_neg fun ⟨_, _, idle⟩ => ?_
  obtain ⟨hunting, long⟩ := (Receiver.atIdle_iff _).mp idle
  exact busy.elim (· hunting) (by omega)

/-- R158: at an idle line the frame chosen is sent from its first bit. -/
theorem State.startTransmit_starts {s : State} {src : TxSource} {f : List Byte} (sends : s.sends = true)
    (quiet : s.bus.tx = .quiet) (hunting : s.bus.rx.state = .hunting) (idle : s.bus.rx.recessive = 11)
    (next : s.nextFrame = some (src, f)) :
    s.startTransmit = { s with bus := { s.bus with
      tx := .sending src f 0, rx := s.bus.rx.startOwn
      statusPending := if src = .status then false else s.bus.statusPending } } := by
  have atIdle : s.bus.rx.atIdle = true := (Receiver.atIdle_iff _).mpr ⟨hunting, idle.ge⟩
  unfold State.startTransmit
  rw [if_pos ⟨sends, quiet, atIdle⟩, next]

/-- R159: a status comes first, built as the transmission starts. -/
theorem State.nextFrame_status {s : State} (pending : s.bus.statusPending = true) (due : s.bus.firstDue = true) :
    s.nextFrame = some (.status, s.statusFrame) := by
  unfold State.nextFrame
  rw [pending, due]
  rfl

/-- R159: with no status to send it is the reply that became READY first. -/
theorem State.nextFrame_reply {s : State} {n : Nat} {rest : List Nat} {f : List Byte}
    (none_ : s.bus.statusPending = false ∨ s.bus.firstDue = false) (order : s.bus.readyOrder = n :: rest)
    (ready : s.bus.place n = .ready f) : s.nextFrame = some (.reply n, f) := by
  have status : ¬ (s.bus.statusPending && s.bus.firstDue) = true := by
    rcases none_ with h | h <;> simp [h]
  unfold State.nextFrame
  rw [if_neg status, order]
  simp only [ready]

/-! ## A frame sent (R159, R161, R167) -/

/-- The bus as a completed frame leaves it, but for the silence timer. -/
theorem State.frameSent_bus (s : State) (src : TxSource) :
    (s.frameSent src).bus = { s.bus.release src with tx := .quiet, silence := (s.frameSent src).bus.silence } := rfl

/-- R159: a release touches the reply places alone. -/
theorem Bus.release_eq (b : Bus) (src : TxSource) :
    b.release src = { b with
      place0 := (b.release src).place0, place1 := (b.release src).place1, readyOrder := (b.release src).readyOrder } := by
  cases src with
  | status => rfl
  | reply n =>
    simp only [Bus.release, Bus.setPlace]
    split <;> rfl

/-- R159: the place of a reply that was sent is FREE, and waits for nothing. -/
theorem Bus.release_reply (b : Bus) (n : Nat) : (b.release (.reply n)).place n = .free ∧ n ∉ (b.release (.reply n)).readyOrder :=
  ⟨b.setPlace_place n .free, by simp [Bus.release]⟩

/-- R161: the silence timer restarts while a frame may still be sent, and stops otherwise. -/
theorem State.frameSent_silence (s : State) (src : TxSource) :
    (s.frameSent src).bus.silence = if s.sends && (s.frameSent src).bus.sendable then .running 0 else .stopped := rfl

/-- A frame is sent to its end whatever bit its transmitter stood at. -/
theorem State.frameSent_driving (s : State) (src : TxSource) (f : List Byte) (n : Nat) (rx : Receiver) :
    (s.driving src f n rx).frameSent src = (s.withRx rx).frameSent src := by
  cases src with
  | status => rfl
  | reply m =>
    simp only [State.frameSent, State.driving, State.withRx, Bus.release, Bus.setPlace]
    split <;> rfl

theorem State.completeFrame_sending {s : State} {src : TxSource} {f : List Byte} {bit : Nat}
    (sending : s.bus.tx = .sending src f bit) : s.completeFrame = (s.withRx (.ownMid f)).frameSent src := by
  unfold State.completeFrame
  rw [sending]
  rfl

/-- R158: a frame whose every bit is read back as driven is sent. -/
theorem State.lineEvents_frameEvents {s : State} {src : TxSource} {f : List Byte} (sending : s.bus.tx = .sending src f 0)
    (started : s.bus.rx = .ownStart []) (least : 1 ≤ f.length) (most : f.length ≤ 46) :
    s.lineEvents (frameEvents f) = (s.withRx (.ownMid f)).frameSent src := by
  have start : s = s.driving src f 0 (.ownStart []) := by
    unfold State.driving
    rw [← sending, ← started]
  have sent : (frameBits f).length ≤ 10 * f.length := (frameBits_length f).le
  calc s.lineEvents (frameEvents f)
      = (s.driving src f 0 (.ownStart [])).lineEvents (frameEvents f) := by rw [← start]
    _ = (s.driving src f (10 * f.length) (.ownMid f)).checkSent := Drives.frame src least most s
    _ = (s.driving src f (10 * f.length) (.ownMid f)).frameSent src := if_pos sent
    _ = (s.withRx (.ownMid f)).frameSent src := s.frameSent_driving src f _ _

/-- Settles O10: the start by what it chooses, the end by what a frame sent leaves, and the bits read back by their sampling. -/
theorem transmitterStartsAndEnds : Obligations.TransmitterStartsAndEnds := by
  unfold Obligations.TransmitterStartsAndEnds
  intro s n rest f bit src awake
  refine ⟨fun busy => ?_, fun sends quiet hunting idle pending due => ?_,
    fun sends quiet hunting idle none_ order ready => ?_, fun sending => ?_, fun sending least most started => ?_⟩
  · exact (live_of_not_inReset _ awake).trans (congrArg _ (State.startTransmit_busy busy))
  · have start := State.startTransmit_starts sends quiet hunting idle (State.nextFrame_status pending due)
    exact (live_of_not_inReset _ awake).trans (congrArg _ start)
  · have start := State.startTransmit_starts sends quiet hunting idle (State.nextFrame_reply none_ order ready)
    exact (live_of_not_inReset _ awake).trans (congrArg _ start)
  · let u := s.withRx (.ownMid f)
    have run : exec .frameComplete s = .next (u.frameSent src) :=
      (live_of_not_inReset _ awake).trans (congrArg _ (State.completeFrame_sending sending))
    have kept := u.bus.release_eq src
    refine ⟨_, run, rfl, u.frameSent_tx src, ?_, ?_, ?_, ?_, ?_, u.frameSent_silence src⟩
    · rw [u.frameSent_bus, kept]; rfl
    · rw [u.frameSent_bus, kept]; rfl
    · rw [u.frameSent_bus, kept]; rfl
    · rintro rfl
      exact ⟨rfl, rfl, rfl⟩
    · rintro rfl
      exact u.bus.release_reply n
  · refine (live_of_not_inReset (·.lineEvents (frameEvents f)) awake).trans (Eq.trans ?_ (live_of_not_inReset _ awake).symm)
    rw [State.lineEvents_frameEvents sending started least most, State.completeFrame_sending sending]

/-! ## A withdrawal (R158) -/

/-- The levels that a stretch of the line shows at its sample points. -/
def levelsOf (es : List LineEvent) : List Bool :=
  es.filterMap fun
    | .sample l => some l
    | .edge _ => none
    | .recessive _ => none

/-- R158: the bits before the one withdrawn at are met as they were driven, and that one at the other level. -/
theorem withdrawEvents_append (es : List LineEvent) (l : Bool) (later : List LineEvent) :
    withdrawEvents (levelsOf es).length (es ++ .sample l :: later) = some (es ++ [.sample !l]) := by
  induction es with
  | nil => rfl
  | cons e es ih =>
    cases e with
    | sample _ => exact congrArg (Option.map _) ih
    | edge _ =>
      show withdrawEvents (levelsOf es).length (.edge _ :: (es ++ _)) = _
      rw [withdrawEvents, ih]
      rfl
    | recessive _ =>
      show withdrawEvents (levelsOf es).length (.recessive _ :: (es ++ _)) = _
      rw [withdrawEvents, ih]
      rfl

@[simp] theorem levelsOf_append (es fs : List LineEvent) : levelsOf (es ++ fs) = levelsOf es ++ levelsOf fs :=
  List.filterMap_append

@[simp] theorem levelsOf_samples (bs : List Bool) : levelsOf (bs.map .sample) = bs := by
  induction bs with
  | nil => rfl
  | cons b bs ih => exact congrArg (b :: ·) ih

/-- The samples up to the start edge of a character are the bits of the characters before it. -/
theorem levelsOf_startEvents (chars : List Byte) : levelsOf (startEvents chars) = frameBits chars := by
  have edge (p : Prop) [Decidable p] (t : Nat) : levelsOf (if p then [] else [.edge t]) = [] := by
    split <;> rfl
  unfold startEvents
  rw [levelsOf_append, edge, List.append_nil]
  induction chars using List.reverseRecOn with
  | nil => rfl
  | append_singleton chars b ih =>
    rw [frameEvents_concat, startEvents, levelsOf_append, levelsOf_append, edge, levelsOf_samples, ih, List.append_nil,
      frameBits_append]
    simp [frameBits]

/-- R161: a request for a status starts a timer that stands still where a frame may then be sent. -/
theorem State.requestStatus_silence (s : State) : s.requestStatus = { s with bus := { s.bus with
    statusPending := true
    silence := if s.sends = true ∧ (s.bus.firstDue = true ∨ s.bus.readyOrder ≠ []) ∧ s.bus.silence = .stopped then .running 0
      else s.bus.silence } } := by
  have sendable : ({ s.bus with statusPending := true } : Bus).sendable = true ↔
      s.bus.firstDue = true ∨ s.bus.readyOrder ≠ [] := by
    simp [Bus.sendable_iff]
  unfold State.requestStatus Bus.startSilence
  simp only [sendable]
  by_cases sends : s.sends = true
  · simp only [sends, true_and, if_true]
    split <;> rfl
  · simp only [sends]
    rfl

/-- R158: a data bit read at another level than driven stops the drive, its frame waits again, and the receiver goes on with it
in the frame of another. -/
theorem State.lineEvent_withdraws (s : State) {src : TxSource} {f : List Byte} {n : Nat} {rx : Receiver} {l : Bool}
    {rest : List Bool} (bits : (frameBits f).drop n = l :: rest) (data : rx.state = .data) (room : rx.bits.length < 8) :
    let quiet := { s with bus := { s.bus with tx := .quiet, rx := { rx with bits := rx.bits ++ [!l], own := false } } }
    (s.driving src f n rx).lineEvent (.sample !l) = quiet.requeue src := by
  intro quiet
  let off : State := { s with bus := { s.bus with tx := .quiet, rx := { rx with own := false } } }
  have driven : (frameBits f)[n]? ≠ some !l := by
    rw [← Nat.add_zero n, ← List.getElem?_drop, bits]
    simp
  have back : (s.driving src f n rx).readBack (.sample !l) = off.requeue src :=
    State.compareBit_withdraws (s := s.driving src f n rx) rfl driven
  have kept : (off.requeue src).bus.rx = { rx with own := false } ∧ (off.requeue src).bus.tx = .quiet := by
    cases src with
    | status =>
      show off.requestStatus.bus.rx = _ ∧ off.requestStatus.bus.tx = _
      rw [off.requestStatus_silence]
      exact ⟨rfl, rfl⟩
    | reply _ => exact ⟨rfl, rfl⟩
  obtain ⟨rxOff, txOff⟩ := kept
  have sampled : ({ rx with own := false } : Receiver).feed false (.sample !l) =
      ({ rx with bits := rx.bits ++ [!l], own := false }, .none) := by
    simp only [Receiver.feed, Receiver.sample, data]
    rw [if_pos room]
  have same : (s.driving src f n rx).lineEvent (.sample !l) = (off.requeue src).lineEvent (.sample !l) := by
    unfold State.lineEvent
    rw [back, State.readBack_quiet txOff]
  rw [same, State.lineEvent_quiet txOff, rxOff, sampled]
  refine (State.checkSent_quiet (s := (off.requeue src).withRx { rx with bits := rx.bits ++ [!l], own := false }) txOff).trans ?_
  cases src with
  | status =>
    show (off.requestStatus).withRx _ = quiet.requestStatus
    rw [off.requestStatus_silence, quiet.requestStatus_silence]
    rfl
  | reply _ => rfl

/-- The receiver as a withdrawal leaves it in a data bit: the characters before it, and the bits of its own character so far. -/
def Receiver.displaced (chars : List Byte) (bits : List Bool) : Receiver :=
  { Receiver.ownStart chars with state := .data, bits := bits, own := false }

/-- R158: a withdrawal at data bit `l` of a character, the bits `bs` of which were driven before it. -/
theorem State.withdrawAt_data {s : State} {src : TxSource} {chars more : List Byte} {b : Byte} {at_ : Nat} {bs later : List Bool}
    {l : Bool} (sending : s.bus.tx = .sending src (chars ++ b :: more) at_) (most : (chars ++ b :: more).length ≤ 46)
    (byte : bitsOf b = bs ++ l :: later) :
    s.withdrawAt (10 * chars.length + (bs.length + 1)) =
      State.requeue { s with bus := { s.bus with tx := .quiet, rx := .displaced chars (bs ++ [!l]) } } src := by
  let f := chars ++ b :: more
  have eight : bs.length + (later.length + 1) = 8 := by
    simpa [bitsOf] using (congrArg List.length byte).symm
  rw [List.length_append, List.length_cons] at most
  have character : characterBits b = (false :: bs) ++ l :: (later ++ [true]) := by
    simp [characterBits, byte]
  have bits : frameBits f = frameBits chars ++ (characterBits b ++ frameBits more) := by
    rw [frameBits_append]
    simp [frameBits]
  have atChar : (frameBits f).drop (10 * chars.length) = false :: (bs ++ (l :: (later ++ [true]) ++ frameBits more)) := by
    rw [bits, List.drop_left' (frameBits_length chars), character]
    simp
  have atBit : (frameBits f).drop (10 * chars.length + 1 + bs.length) = l :: (later ++ [true] ++ frameBits more) := by
    rw [Nat.add_assoc, ← List.drop_drop, atChar, Nat.add_comm 1, List.drop_succ_cons, List.drop_left]
    rfl
  have before : Drives src f (.ownStart []) 0 (startEvents chars ++ (false :: bs).map .sample)
      { Receiver.ownStart chars with state := .data, bits := bs } (10 * chars.length + 1 + bs.length) :=
    (Drives.toStart chars (by omega) bits (List.cons_ne_nil _ _)).append (by rw [atChar]; exact List.cons_ne_nil _ _)
      (Drives.startBits (rx := .ownStart chars) rfl bs (by omega) atChar (List.cons_ne_nil _ _))
  have events : withdrawEvents (10 * chars.length + (bs.length + 1)) (frameEvents f) =
      some (startEvents chars ++ (false :: bs).map .sample ++ [.sample !l]) := by
    obtain ⟨after, whole⟩ := frameEvents_cons chars b more
    have count : (levelsOf (startEvents chars ++ (false :: bs).map .sample)).length = 10 * chars.length + (bs.length + 1) := by
      rw [levelsOf_append, levelsOf_startEvents, levelsOf_samples, List.length_append, frameBits_length, List.length_cons]
    have found := withdrawEvents_append (startEvents chars ++ (false :: bs).map .sample) l
      ((later ++ [true]).map .sample ++ after)
    rw [count] at found
    rw [show frameEvents f = _ from whole, character, ← found]
    simp only [List.map_append, List.map_cons, List.append_assoc, List.cons_append]
  unfold State.withdrawAt
  rw [sending]
  simp only [show withdrawEvents (10 * chars.length + (bs.length + 1)) (frameEvents (chars ++ b :: more)) = _ from events]
  show (s.driving src f 0 (.ownStart [])).lineEvents _ = _
  rw [State.lineEvents_append, before s, State.checkSent_driving _ _ (by rw [atBit]; exact List.cons_ne_nil _ _)]
  exact s.lineEvent_withdraws atBit rfl (by show bs.length < 8; omega)

/-- Settles O11: the bits before the one withdrawn at are read back as driven, and at that one the station withdraws. -/
theorem withdrawReceivesOn : Obligations.WithdrawReceivesOn := by
  unfold Obligations.WithdrawReceivesOn
  intro s src f at_ i j b awake sending most char first last
  obtain ⟨inside, rfl⟩ := List.getElem?_eq_some_iff.mp char
  have split : f = f.take i ++ f[i] :: f.drop (i + 1) := by
    rw [← List.drop_eq_getElem_cons inside, List.take_append_drop]
  have taken : (f.take i).length = i := List.length_take_of_le inside.le
  let bits := bitsOf f[i]
  have place : j - 1 < bits.length := by
    show j - 1 < 8
    omega
  have byte : bits = bits.take (j - 1) ++ bits[j - 1] :: bits.drop (j - 1 + 1) := by
    rw [← List.drop_eq_getElem_cons place, List.take_append_drop]
  have before : (bits.take (j - 1)).length = j - 1 := List.length_take_of_le place.le
  refine ⟨.displaced (f.take i) (bits.take (j - 1) ++ [!bits[j - 1]]), rfl, rfl, rfl, ?_, ?_⟩
  · show bits.take (j - 1) ++ [!bits[j - 1]] = bits.take (j - 1) ++ [!bits.getD (j - 1) false]
    rw [List.getD_eq_getElem _ _ place]
  · intro quiet
    refine (live_of_not_inReset (·.withdrawAt (10 * i + j)) awake).trans (congrArg _ ?_)
    have withdrawn := State.withdrawAt_data (at_ := at_) (by rw [← split]; exact sending) (by rw [← split]; exact most) byte
    rw [taken, before, show j - 1 + 1 = j by omega] at withdrawn
    rw [withdrawn]
    cases src with
    | status => exact quiet.requestStatus_silence
    | reply _ => rfl

end Sys2Proof.Machine
end

-- ==== Proofs: frames read back ====
section
/-! SETTLES O3. The envelope of a frame passes the checks of R156 and gives its payload back, and each class's payload gives its
row back (section 9.2). -/

namespace Sys2Proof

/-! ## Fields (00_scope.md, Byte order) -/

theorem join16_bytes16 (x : BitVec 16) : join16 (x.extractLsb' 8 8) (x.extractLsb' 0 8) = x := by
  unfold join16
  rw [BitVec.extractLsb'_append_extractLsb'_eq_extractLsb' (by rfl)]
  simp

theorem join24_bytes24 (x : BitVec 24) : join24 (x.extractLsb' 16 8) (x.extractLsb' 8 8) (x.extractLsb' 0 8) = x := by
  unfold join24
  rw [BitVec.extractLsb'_append_extractLsb'_eq_extractLsb' (by rfl), BitVec.extractLsb'_append_extractLsb'_eq_extractLsb' (by rfl)]
  simp

theorem join32_bytes32 (x : BitVec 32) :
    join32 (x.extractLsb' 24 8) (x.extractLsb' 16 8) (x.extractLsb' 8 8) (x.extractLsb' 0 8) = x := by
  unfold join32
  rw [BitVec.extractLsb'_append_extractLsb'_eq_extractLsb' (by rfl), BitVec.extractLsb'_append_extractLsb'_eq_extractLsb' (by rfl),
    BitVec.extractLsb'_append_extractLsb'_eq_extractLsb' (by rfl)]
  simp

/-! ## The envelope (R156) -/

/-- R156: characters whose length byte and CRC are those of the payload they carry pass the checks. -/
theorem decodeFrame_passes (jumper : Bool) (straps : BitVec 5) (head u2 u1 u0 len : Byte) {payload : List Byte}
    (count : len.toNat = payload.length) (fits : payload.length ≤ 40) :
    decodeFrame jumper straps
        (head :: u2 :: u1 :: u0 :: len :: (payload ++ [crc8 (head :: u2 :: u1 :: u0 :: len :: payload)])) =
      decodePayload jumper straps (head.extractLsb' 5 3).toNat
        { station := head.extractLsb' 0 5, unitTag := join24 u2 u1 u0 } payload := by
  simp only [decodeFrame, List.append_eq_nil_iff, List.cons_ne_nil, and_false, if_false, List.dropLast_concat,
    List.getLast?_concat, count, fits, decide_true, Bool.and_self, if_true]

/-- R156: a payload of at most 40 bytes passes the checks in its envelope, and goes to the sorting by class. -/
theorem decodeFrame_frameBytes (jumper : Bool) (straps : BitVec 5) (cls : BitVec 3) (snd : Sender) {payload : List Byte}
    (fits : payload.length ≤ 40) :
    decodeFrame jumper straps (frameBytes cls snd payload) = decodePayload jumper straps cls.toNat snd payload := by
  have count : (BitVec.ofNat 8 payload.length).toNat = payload.length :=
    (BitVec.toNat_ofNat _ _).trans (Nat.mod_eq_of_lt (by omega))
  refine (decodeFrame_passes jumper straps (headerByte cls snd.station) _ _ _ _ count fits).trans ?_
  rw [join24_bytes24, headerByte, BitVec.extractLsb'_append_eq_left, BitVec.extractLsb'_append_eq_right]

/-! ## The payloads (section 9.2) -/

theorem decodePayload_enable (jumper : Bool) (straps : BitVec 5) (snd : Sender) (targets : BitVec 32) :
    decodePayload jumper straps 1 snd (bytes32 targets) = some (.enableFrame snd targets) := by
  show some (Instr.enableFrame snd (join32 _ _ _ _)) = _
  rw [join32_bytes32]

/-- The header of a COMMAND reads back as it was sent. -/
theorem commandHead_read (h : CommandHead) :
    ({ sender := h.sender, tag := h.tag
       targets := join32 (h.targets.extractLsb' 24 8) (h.targets.extractLsb' 16 8) (h.targets.extractLsb' 8 8)
         (h.targets.extractLsb' 0 8) } : CommandHead) = h := by
  rw [join32_bytes32]

/-- A COMMAND frame whose payload reads back is that command. -/
theorem decodeFrame_command (jumper : Bool) (straps : BitVec 5) {kind : Byte} {h : CommandHead} {args : List Byte} {c : Instr}
    (fits : args.length ≤ 34) (read : decodeCommand h.sender (commandBytes kind h args) = some c) :
    decodeFrame jumper straps (commandFrame kind h args) = some c := by
  refine (decodeFrame_frameBytes jumper straps 2#3 h.sender ?_).trans read
  simp only [commandBytes, bytes32, List.cons_append, List.nil_append, List.length_cons]
  omega

/-- R156: every COMMAND row has the arguments that its kind asks for. -/
theorem decodeFrame_commandRow (jumper : Bool) (straps : BitVec 5) {c : Instr} {h : CommandHead}
    (head : c.commandHead = some h) : decodeFrame jumper straps c.frame = some c := by
  cases c
  case convert _ layout delay =>
    cases head
    refine decodeFrame_command jumper straps (by simp [bytes16]) ?_
    show some (Instr.convert _ layout (join16 _ _)) = _
    rw [commandHead_read, join16_bytes16]
  case jog _ axis dir speed =>
    cases head
    refine decodeFrame_command jumper straps (by simp [bytes24]) ?_
    show some (Instr.jog _ axis dir (join24 _ _ _)) = _
    rw [commandHead_read, join24_bytes24]
  case home _ axis =>
    cases head
    exact decodeFrame_command jumper straps (by simp) (congrArg (fun r => some (Instr.home r axis)) (commandHead_read h))
  case jogEnd _ axis =>
    cases head
    exact decodeFrame_command jumper straps (by simp) (congrArg (fun r => some (Instr.jogEnd r axis)) (commandHead_read h))
  case cancel =>
    cases head
    exact decodeFrame_command jumper straps (by simp) (congrArg (fun r => some (Instr.cancel r)) (commandHead_read h))
  case clearFault =>
    cases head
    exact decodeFrame_command jumper straps (by simp) (congrArg (fun r => some (Instr.clearFault r)) (commandHead_read h))
  all_goals cases head

/-- A SERVICE_REQ row is the row of its kind and its request, jumper and straps among them (R164, R179, R181). -/
theorem requestRow_serviceReq {c : Instr} {kind : Byte} {r : ServiceReq} (request : c.serviceReq = some (kind, r))
    (wf : c.wf = true) : requestRow kind r = c ∧ c.jumper = r.jumper ∧ c.strapLevel = r.straps := by
  cases c
  case undefinedServiceReq =>
    cases request
    refine ⟨?_, rfl, rfl⟩
    simp only [Instr.wf, Bool.and_eq_true, Bool.not_eq_true', Bool.and_eq_false_iff, decide_eq_false_iff_not] at wf
    unfold requestRow
    split
    on_goal 16 => rfl
    all_goals omega
  all_goals (cases request <;> exact ⟨rfl, rfl, rfl⟩)

/-- R156, R164: a SERVICE_REQ frame is the row of its kind. -/
theorem decodeFrame_service {kind : Byte} {r : ServiceReq} (fits : r.wf = true) :
    decodeFrame r.jumper r.straps (serviceFrame kind r) = some (requestRow kind r) := by
  have short : r.args.length ≤ 37 := of_decide_eq_true fits
  refine decodeFrame_frameBytes r.jumper r.straps 4#3 r.sender ?_
  simp only [List.length_cons]
  omega

/-- The zone entries of a status read back, with what follows them. -/
theorem takeZones_flatMap (zones : List (Byte × Byte)) (rest : List Byte) :
    takeZones zones.length (zones.flatMap (fun z => [z.1, z.2]) ++ rest) = some (zones, rest) := by
  induction zones with
  | nil => rfl
  | cons z zones ih =>
    show (takeZones zones.length (zones.flatMap (fun z => [z.1, z.2]) ++ rest)).map _ = _
    rw [ih]
    rfl

/-- A status payload of at most 4 zones reads back (R156). -/
theorem decodeStatus_statusBytes {p : StatusPayload} (fits : p.zones.length ≤ 4) : decodeStatus (statusBytes p) = some p := by
  have count : (BitVec.ofNat 8 p.zones.length).toNat = p.zones.length :=
    (BitVec.toNat_ofNat _ _).trans (Nat.mod_eq_of_lt (by omega))
  have zones := takeZones_flatMap p.zones [p.fault, p.notice, p.outStation, p.outTag, p.outCode]
  simp only [statusBytes, bytes24, List.cons_append, List.nil_append, decodeStatus, count, fits, if_true, zones,
    join24_bytes24, BitVec.extractLsb'_append_eq_left, BitVec.extractLsb'_append_eq_right]

theorem statusBytes_length (p : StatusPayload) : (statusBytes p).length = 25 + 2 * p.zones.length := by
  have zones : (p.zones.flatMap fun z => [z.1, z.2]).length = 2 * p.zones.length := by
    induction p.zones with
    | nil => rfl
    | cons z zs ih =>
      show (zs.flatMap fun z => [z.1, z.2]).length + 2 = 2 * (zs.length + 1)
      rw [ih]
      omega
  simp only [statusBytes, bytes24, List.cons_append, List.nil_append, List.length_cons, List.length_append, zones,
    List.length_nil]
  omega

/-! ## The statement -/

/-- Settles O3: by the class of the row, its payload fits the envelope and reads back. -/
theorem frameRoundTrip : Obligations.FrameRoundTrip := by
  unfold Obligations.FrameRoundTrip
  intro c f wf encoded
  have frame : c.frame = f := by
    unfold Instr.frame
    rw [encoded]
    rfl
  rw [← frame]
  cases head : c.commandHead with
  | some h => exact decodeFrame_commandRow _ _ head
  | none =>
    cases request : c.serviceReq with
    | some q =>
      obtain ⟨-, fits, frame, -⟩ := Machine.exec_requestRow (kind := q.1) (r := q.2) request wf
      obtain ⟨row, jumper, straps⟩ := requestRow_serviceReq (kind := q.1) (r := q.2) request wf
      rw [frame, jumper, straps, decodeFrame_service fits, row]
    | none =>
      cases c
      case stopFrame snd => exact decodeFrame_frameBytes _ _ 0#3 snd (Nat.zero_le 40)
      case enableFrame snd targets =>
        exact (decodeFrame_frameBytes _ _ 1#3 snd (by simp [bytes32])).trans (decodePayload_enable _ _ snd targets)
      case statusFrame snd p =>
        have zones : p.zones.length ≤ 4 := of_decide_eq_true wf
        have fits : (statusBytes p).length ≤ 40 := by
          rw [statusBytes_length]
          omega
        refine (decodeFrame_frameBytes _ _ 3#3 snd fits).trans ?_
        show (decodeStatus (statusBytes p)).map _ = _
        rw [decodeStatus_statusBytes zones]
        rfl
      case serviceReplyFrame snd requester kind tag outcome data =>
        have short : data.length ≤ 36 := of_decide_eq_true wf
        refine decodeFrame_frameBytes _ _ 5#3 snd ?_
        simp only [List.length_cons]
        omega
      all_goals simp [encodeFrame, Instr.commandHead, Instr.serviceReq] at encoded head request

end Sys2Proof
end

-- ==== Proofs: what leaves the transmitter alone ====
section
/-! SUPPORT. Nothing that a frame does, taken or discarded, touches the transmitter (R158): its own rows and the comparison of its
bits are all that do. One lemma an operation. -/

namespace Sys2Proof.Machine

/-! ## The bus and the fault unit -/

@[simp] theorem State.requestStatus_tx (s : State) : s.requestStatus.bus.tx = s.bus.tx := by rw [State.requestStatus_bus]

@[simp] theorem State.giveOutcome_tx (s : State) (c n : Nat) (o : CmdOutcome) : (s.giveOutcome c n o).bus.tx = s.bus.tx :=
  State.requestStatus_tx _

theorem MotionOnly.tx {s t : State} (h : MotionOnly s t) : t.bus.tx = s.bus.tx := by rw [h.bus]

@[simp] theorem State.setReferenced_tx (s : State) (x : Axis) (r : Bool) : (s.setReferenced x r).bus.tx = s.bus.tx := by
  unfold State.setReferenced
  split
  · rfl
  · rw [State.requestStatus_tx, State.setAxis_bus]

@[simp] theorem State.judgeZoneWait_tx (s : State) : s.judgeZoneWait.bus.tx = s.bus.tx := by rw [State.judgeZoneWait_eq]

@[simp] theorem State.seqToIdle_tx (s : State) : s.seqToIdle.bus.tx = s.bus.tx := State.requestStatus_tx _

@[simp] theorem State.seqToAborted_tx (s : State) : s.seqToAborted.bus.tx = s.bus.tx := by
  unfold State.seqToAborted
  rw [State.judgeZoneWait_tx, State.requestStatus_tx]

@[simp] theorem State.endConversion_tx (s : State) (o : Option CmdOutcome) : (s.endConversion o).bus.tx = s.bus.tx := by
  rcases s.seq.state_cases with ease | armed | converting
  · rw [State.endConversion_atEase ease]
  · rcases State.endConversion_armed armed o with e | ⟨c, n, q, e⟩ <;> simp [e]
  · rw [State.endConversion_converting converting, State.seqToAborted_tx]

@[simp] theorem State.stopBoth_tx (s : State) (k : StopKind) : (s.stopBoth k).bus.tx = s.bus.tx :=
  (s.stopBoth_motionOnly k).tx

@[simp] theorem State.endRun_tx (s : State) : s.endRun.bus.tx = s.bus.tx := s.endRun_motionOnly.tx

@[simp] theorem State.latched_tx (s : State) (k : FaultKind) (f : FaultFields) : (s.latched k f).bus.tx = s.bus.tx := by
  have cleared (t : State) : (t.clearSent k).bus.tx = t.bus.tx := by
    unfold State.clearSent
    split <;> rfl
  unfold State.latched
  rw [cleared]
  unfold State.latch
  split
  · exact State.requestStatus_tx _
  · split
    · rfl
    · exact State.requestStatus_tx _

/-- R171: a frame in transmission is sent to its end, also in ISOLATED. -/
@[simp] theorem State.report_tx (s : State) (k : FaultKind) (f : FaultFields) : (s.report k f).bus.tx = s.bus.tx := by
  have reacted : (s.reacted k f).bus.tx = s.bus.tx := by
    unfold State.reacted
    simp
  by_cases dup : k = .duplicateStation
  · rw [dup] at reacted ⊢
    rw [State.report_duplicate]
    exact reacted
  · rw [(s.report_motionOnly f dup).tx, reacted]

/-! ## Motion requests -/

@[simp] theorem State.tellStopped_tx (s : State) (x : Axis) (q : Option Requester) : (s.tellStopped x q).bus.tx = s.bus.tx :=
  (s.tellStopped_motionOnly x q).tx

@[simp] theorem State.stopAxis_tx (s : State) (x : Axis) (k : StopKind) : (s.stopAxis x k).bus.tx = s.bus.tx :=
  (s.stopAxis_motionOnly x k).tx

@[simp] theorem State.refuseRequest_tx (s : State) (x : Axis) (q : Requester) : (s.refuseRequest x q).bus.tx = s.bus.tx := by
  cases q <;> simp [State.refuseRequest]

@[simp] theorem State.releaseExpired_tx (s : State) (x : Axis) : (s.releaseExpired x).bus.tx = s.bus.tx := by
  unfold State.releaseExpired
  simp only
  split
  · simp
  · split <;> simp

@[simp] theorem State.readyTaken_tx (s : State) (x : Axis) : (s.readyTaken x).bus.tx = s.bus.tx := by
  unfold State.readyTaken
  simp only
  split <;> simp

@[simp] theorem State.placeRequest_tx (s : State) (x : Axis) (r : Request) : (s.placeRequest x r).bus.tx = s.bus.tx := by
  unfold State.placeRequest State.startUp
  simp only
  split
  · split
    · rfl
    · split <;> simp
  all_goals simp

@[simp] theorem State.request_tx (s : State) (x : Axis) (r : Request) : (s.request x r).bus.tx = s.bus.tx := by
  have noticed : (s.noticed x r.goal).bus.tx = s.bus.tx := by rw [State.noticed_eq]
  rw [State.request_eq]
  split <;> simp [noticed]

/-! ## The sequencer -/

@[simp] theorem State.testConds_tx (s : State) (f : Nat → Bool) : (s.testConds f).bus.tx = s.bus.tx := rfl

@[simp] theorem State.startStep_tx (s : State) (k : Nat) : (s.startStep k).bus.tx = s.bus.tx := State.requestStatus_tx _

@[simp] theorem State.giveTarget_tx (s : State) (x : Axis) : (s.giveTarget x).bus.tx = s.bus.tx := by
  unfold State.giveTarget
  split
  · split <;> simp
  · rfl

@[simp] theorem State.startMoving_tx (s : State) : s.startMoving.bus.tx = s.bus.tx := by
  unfold State.startMoving
  simp only
  split
  · simp
  · simp
  · simp
  · split <;> simp

@[simp] theorem State.finishStep_tx (s : State) : s.finishStep.bus.tx = s.bus.tx := by
  unfold State.finishStep
  split <;> simp

@[simp] theorem State.advance_tx (n : Nat) (s : State) : (State.advance n s).bus.tx = s.bus.tx := by
  induction n generalizing s with
  | zero => rfl
  | succ n ih =>
    unfold State.advance
    split
    · split
      · split <;> simp [ih]
      · split <;> simp [ih]
      · split <;> simp [ih]
      · rfl
      · rfl
    · rfl

@[simp] theorem State.runPhases_tx (s : State) : s.runPhases.bus.tx = s.bus.tx := State.advance_tx _ s

@[simp] theorem State.stopRequested_tx (s : State) : s.stopRequested.bus.tx = s.bus.tx := s.stopRequested_motionOnly.tx

@[simp] theorem State.seqArrival_tx (s : State) (n : Nat) : (s.seqArrival n).bus.tx = s.bus.tx := by
  have aborted : s.peerAborts.bus.tx = s.bus.tx := by
    unfold State.peerAborts
    rw [State.seqToAborted_tx, State.stopRequested_tx]
    rfl
  unfold State.seqArrival
  split
  · split
    · split <;> simp [aborted]
    · rfl
  · rfl

@[simp] theorem State.resumeAxis_tx (s : State) (q : Sequencer) (x : Axis) : (s.resumeAxis q x).bus.tx = s.bus.tx := by
  unfold State.resumeAxis
  split
  · simp
  · split <;> simp
  all_goals rfl

@[simp] theorem State.resume_tx (s : State) : s.resume.bus.tx = s.bus.tx := by
  unfold State.resume
  split
  · simp only
    split <;> simp
  · rfl

@[simp] theorem State.discard_tx (s : State) : s.discard.bus.tx = s.bus.tx := by
  have annulled : s.annul.bus.tx = s.bus.tx := by rw [State.annul_eq]
  unfold State.discard
  split
  · rfl
  · exact annulled
  · exact annulled
  · exact annulled
  · rfl

/-! ## The zone guard and the peer view -/

@[simp] theorem State.selectFor_tx (s : State) (n : Nat) : (s.selectFor n).bus.tx = s.bus.tx := by
  unfold State.selectFor State.select
  split
  · split
    · split <;> rfl
    · rfl
  · rfl

@[simp] theorem State.announce_tx (s b : State) : (s.announce b).bus.tx = s.bus.tx := by
  unfold State.announce
  split <;> simp

@[simp] theorem State.reportConflicts_tx (n : Nat) (rows : List GuardRow) (s : State) :
    (s.reportConflicts n rows).bus.tx = s.bus.tx := by
  induction rows generalizing s with
  | nil => rfl
  | cons r rs ih =>
    unfold State.reportConflicts
    rw [ih]
    split <;> simp

@[simp] theorem State.zoneArrival_tx (s : State) (n : Nat) : (s.zoneArrival n).bus.tx = s.bus.tx := by
  have withdrawn (t : State) : (t.withdrawNotClear n).bus.tx = t.bus.tx := rfl
  unfold State.zoneArrival
  simp only [State.announce_tx, State.judgeZoneWait_tx]
  split <;> simp [withdrawn]

theorem State.statusArrival_tx (s : State) (n : Nat) (p : StatusPayload) : (s.statusArrival n p).bus.tx = s.bus.tx := by
  unfold State.statusArrival
  split
  · rfl
  · simp only
    split <;> split <;> simp

/-! ## A frame taken -/

/-- A frame received leaves the transmitter as its hand-off does. -/
theorem State.receive_tx (s : State) (frame : List Byte) (wf : Bool) (snd : Sender) {f : State → State}
    (h : ∀ t : State, (f t).bus.tx = t.bus.tx) : (s.receive frame wf snd f).bus.tx = s.bus.tx := by
  have checked (t : State) : (t.checkDuplicate snd).bus.tx = t.bus.tx := by
    unfold State.checkDuplicate
    split <;> simp
  have sorted (t : State) : (t.sortFrame snd f).bus.tx = t.bus.tx := by
    unfold State.sortFrame
    split
    · simp only
      split <;> simp [h, checked]
    · rfl
  cases wf
  · exact State.discard_tx _
  · exact sorted _

theorem State.receiveCommand_tx (s : State) (kind : Byte) (h : CommandHead) (args : List Byte) (defined : Bool)
    {owner : State → State × CmdOutcome} (k : ∀ t : State, (owner t).1.bus.tx = t.bus.tx) :
    (s.receiveCommand kind h args defined owner).bus.tx = s.bus.tx := by
  refine State.receive_tx s _ _ _ fun t => ?_
  unfold State.command
  split
  · simp only [State.giveOutcome_tx]
    split <;> simp [k]
  · rfl

@[simp] theorem Bus.setPlace_tx (b : Bus) (n : Nat) (p : Place) : (b.setPlace n p).tx = b.tx := by
  unfold Bus.setPlace
  split <;> rfl

@[simp] theorem Bus.startSilence_tx (b : Bus) : b.startSilence.tx = b.tx := by
  unfold Bus.startSilence
  split <;> rfl

@[simp] theorem State.handReply_tx (s : State) (n : Nat) (o : SvcOutcome) (data : List Byte) :
    (s.handReply n o data).bus.tx = s.bus.tx := by
  unfold State.handReply
  split <;> simp

theorem State.receiveRequest_tx (s : State) (kind : Byte) (r : ServiceReq) {owner : State → State × Answer}
    (k : ∀ t : State, (owner t).1.bus.tx = t.bus.tx) : (s.receiveRequest kind r owner).bus.tx = s.bus.tx := by
  have answered (t : State) (n : Nat) (a : Answer) : (t.answer n a).bus.tx = t.bus.tx := by
    cases a <;> simp [State.answer]
  refine State.receive_tx s _ _ _ fun t => ?_
  unfold State.service
  split
  · split
    · rfl
    · simp only
      split <;> simp [answered, k]
  · rfl

/-! ## Commands -/

theorem State.ownConvert_tx (s : State) (h : CommandHead) (layout : Byte) (delay : BitVec 16) :
    (s.ownConvert h layout delay).1.bus.tx = s.bus.tx := by
  unfold State.ownConvert
  split <;> simp [State.arm]

theorem State.ownCancel_tx (s : State) : s.ownCancel.1.bus.tx = s.bus.tx := by
  unfold State.ownCancel
  split <;> simp

theorem State.ownJog_tx (s : State) (x : Axis) (d : Dir) (v : Nat) : (s.ownJog x d v).1.bus.tx = s.bus.tx := by
  unfold State.ownJog State.startJog
  split
  · rfl
  · split <;> simp

theorem State.ownHome_tx (s : State) (x : Axis) : (s.ownHome x).1.bus.tx = s.bus.tx := by
  unfold State.ownHome State.startHome
  split <;> simp

theorem State.ownJogEnd_tx (s : State) (x : Axis) : (s.ownJogEnd x).1.bus.tx = s.bus.tx := by
  unfold State.ownJogEnd
  split <;> simp

theorem State.ownClearFault_tx (s : State) : s.ownClearFault.1.bus.tx = s.bus.tx := by
  unfold State.ownClearFault State.clearFaults
  split
  · rfl
  · split <;> simp

/-! ## Service requests -/

theorem State.ownCommissionEnter_tx (s : State) : s.ownCommissionEnter.1.bus.tx = s.bus.tx := by
  have entered : s.enterCommission.bus.tx = s.bus.tx := State.announce_tx _ s
  unfold State.ownCommissionEnter
  split
  · rfl
  · split
    · rfl
    · exact entered
    · split
      · exact entered
      · rfl
    · rfl
    · rfl

theorem State.ownCommissionExit_tx (s : State) : s.ownCommissionExit.1.bus.tx = s.bus.tx := by
  unfold State.ownCommissionExit
  split
  · rfl
  · split <;> rfl

theorem State.ownRestart_tx (s : State) : s.ownRestart.1.bus.tx = s.bus.tx := by
  unfold State.ownRestart
  split <;> rfl

theorem State.ownWriteEnable_tx (s : State) : s.ownWriteEnable.1.bus.tx = s.bus.tx := by
  unfold State.ownWriteEnable
  split <;> rfl

theorem State.ownConfigWrite_tx (s : State) (args : List Byte) : (s.ownConfigWrite args).1.bus.tx = s.bus.tx := by
  unfold State.ownConfigWrite
  split
  · rfl
  · split
    · rfl
    · split <;> rfl

theorem State.rxByKind_tx (s : State) (kind : Byte) (r : ServiceReq) : (s.rxByKind kind r).bus.tx = s.bus.tx := by
  have read {owner : State → State × Answer} (h : ∀ t, (owner t).1 = t) (t : State) : (owner t).1.bus.tx = t.bus.tx := by
    rw [h]
  unfold State.rxByKind
  split
  · exact s.receiveRequest_tx _ r fun _ => rfl
  · exact s.receiveRequest_tx _ r fun _ => rfl
  · exact s.receiveRequest_tx _ r (read (State.ownReadPeers_state · _))
  · exact s.receiveRequest_tx _ r (read (State.ownReadCapture_state · _))
  · exact s.receiveRequest_tx _ r (read (State.ownReadSlot_state · _))
  · exact s.receiveRequest_tx _ r State.ownCommissionEnter_tx
  · exact s.receiveRequest_tx _ r State.ownCommissionExit_tx
  · exact s.receiveRequest_tx _ r State.ownWriteEnable_tx
  · exact s.receiveRequest_tx _ r fun _ => rfl
  · exact s.receiveRequest_tx _ r fun _ => rfl
  · exact s.receiveRequest_tx _ r fun _ => rfl
  · exact s.receiveRequest_tx _ r fun _ => rfl
  · exact s.receiveRequest_tx _ r (State.ownConfigWrite_tx · _)
  · exact s.receiveRequest_tx _ r fun _ => rfl
  · exact s.receiveRequest_tx _ r State.ownRestart_tx
  · exact s.receiveRequest_tx _ r fun _ => rfl

/-! ## Every frame -/

/-- A command leaves the transmitter, whatever its owner does. -/
theorem State.runCommand_tx (s : State) {c : Instr} {h : CommandHead} (head : c.commandHead = some h) :
    (s.runFrame c).bus.tx = s.bus.tx := by
  cases c
  case convert _ layout delay => exact s.receiveCommand_tx _ _ _ _ fun t => t.ownConvert_tx _ layout delay
  case cancel => exact s.receiveCommand_tx _ _ _ _ State.ownCancel_tx
  case home _ axis =>
    refine s.receiveCommand_tx _ _ _ _ fun t => ?_
    split
    · exact t.ownHome_tx _
    · rfl
  case jog _ axis dir speed =>
    refine s.receiveCommand_tx _ _ _ _ fun t => ?_
    split
    · exact t.ownJog_tx _ _ _
    · rfl
  case jogEnd _ axis =>
    refine s.receiveCommand_tx _ _ _ _ fun t => ?_
    split
    · exact t.ownJogEnd_tx _
    · rfl
  case clearFault => exact s.receiveCommand_tx _ _ _ _ State.ownClearFault_tx
  all_goals cases head

/-- A request is taken by its kind byte. -/
theorem State.runFrame_request (s : State) {c : Instr} {kind : Byte} {r : ServiceReq} (request : c.serviceReq = some (kind, r)) :
    s.runFrame c = s.rxByKind kind r := by
  cases c <;> cases request <;> rfl

theorem State.enableTaken_tx (s : State) (snd : Sender) (targets : BitVec 32) :
    (s.enableTaken snd targets).bus.tx = s.bus.tx := by
  unfold State.enableTaken
  split
  · simp only
    split <;> simp
  · rfl

/-- A row that is no frame is not run as one. -/
theorem State.runFrame_of_no_sender (s : State) {c : Instr} (sender : c.sender = none) : s.runFrame c = s := by
  cases c <;> first | rfl | cases sender

theorem State.runFrame_tx (s : State) (c : Instr) : (s.runFrame c).bus.tx = s.bus.tx := by
  cases sender : c.sender with
  | none => rw [s.runFrame_of_no_sender sender]
  | some _ =>
    cases head : c.commandHead with
    | some h => exact s.runCommand_tx head
    | none =>
      cases request : c.serviceReq with
      | some q => rw [s.runFrame_request (kind := q.1) (r := q.2) request, State.rxByKind_tx]
      | none =>
        cases c
        case statusFrame snd p => exact s.receive_tx _ _ snd fun t => t.statusArrival_tx _ p
        case stopFrame snd =>
          refine s.receive_tx _ _ snd fun t => ?_
          unfold State.stopTaken
          simp
        case enableFrame snd targets => exact s.receive_tx _ _ snd fun t => t.enableTaken_tx snd targets
        case serviceReplyFrame snd _ _ _ _ _ => exact s.receive_tx _ _ snd fun _ => rfl
        all_goals simp [Instr.sender, Instr.commandHead, Instr.serviceReq] at sender head request

/-- R155, R158: whatever becomes of a frame that ended, the transmitter stands as it stood. -/
@[simp] theorem State.frameEnd_tx (s : State) (chars : List Byte) : (s.frameEnd chars).bus.tx = s.bus.tx := by
  show (s.judgeFrame chars).bus.tx = s.bus.tx
  unfold State.judgeFrame
  split
  · exact s.runFrame_tx _
  · exact s.discard_tx

end Sys2Proof.Machine
end

-- ==== Proofs: a frame on the line, and its errors ====
section
/-! SETTLES O5 and O6. What a quiet station makes of a stretch of the line (R153 to R155): a whole frame is given to its checks, an
edge or a sample out of place discards it. -/

namespace Sys2Proof.Machine

/-! ## One event of the line -/

theorem State.takeReport_tx (s : State) (report : RxReport) : (s.takeReport report).bus.tx = s.bus.tx := by
  cases report
  · rfl
  · exact s.discard_tx
  · exact s.frameEnd_tx _

/-- An event met by a station that does not drive the line is its receiver's step, and the report taken. -/
theorem exec_lineEvent {s : State} (awake : s.inReset = false) (quiet : s.bus.tx = .quiet) (e : LineEvent) {rx : Receiver}
    {report : RxReport} (fed : s.bus.rx.feed false e = (rx, report)) :
    exec (.frameDiscard [e]) s = .next ((s.withRx rx).takeReport report) := by
  refine (live_of_not_inReset (·.lineEvents [e]) awake).trans (congrArg _ ?_)
  show s.lineEvent e = _
  rw [State.lineEvent_quiet quiet, fed]
  exact State.checkSent_quiet (((s.withRx rx).takeReport_tx report).trans quiet)

/-! ## Edges (R155) -/

section
variable {rx : Receiver} {time : Nat}

theorem Receiver.edge_soon (between : rx.state = .between) (soon : time - rx.lastEdge ≤ 15) (sending : Bool) :
    rx.edge sending time = ({ rx.startEdge time with own := rx.own && sending }, .none) := by
  unfold Receiver.edge
  rw [between]
  exact if_pos soon

theorem Receiver.edge_gap (between : rx.state = .between) (other : rx.own = false) (late : 15 < time - rx.lastEdge)
    (early : time - rx.lastEdge < 20) (sending : Bool) : rx.edge sending time = (rx.dropped, .discard) := by
  unfold Receiver.edge
  rw [between]
  simp only [Nat.not_le.mpr late, early, other, if_false, if_true, Bool.false_eq_true]

theorem Receiver.edge_next (between : rx.state = .between) (other : rx.own = false) (late : 20 ≤ time - rx.lastEdge)
    (sending : Bool) : rx.edge sending time = (rx.firstEdge time, .frame rx.buffer) := by
  have notSoon : ¬ time - rx.lastEdge ≤ 15 := by omega
  unfold Receiver.edge Receiver.ended
  rw [between]
  simp only [notSoon, Nat.not_lt.mpr late, other, if_false, Bool.false_eq_true]

/-! ## Stop bits (R154, R155) -/

theorem Receiver.sample_framing (data : rx.state = .data) (eight : rx.bits.length = 8) :
    rx.sample false = (rx.dropped, .discard) := by
  unfold Receiver.sample
  rw [data]
  exact if_neg (by omega)

theorem Receiver.sample_excess (data : rx.state = .data) (eight : rx.bits.length = 8) (full : rx.buffer.length = 46) :
    rx.sample true = (rx.dropped, .discard) := by
  unfold Receiver.sample
  rw [data]
  simp only [eight, full, Nat.lt_irrefl, if_false, Bool.not_true, Bool.false_eq_true]
  rfl

end

/-! ## The statements -/

/-- Settles O5: the line brings the frame to its checks, and nothing that comes of it touches the transmitter. -/
theorem lineBringsFrame : Obligations.LineBringsFrame := by
  unfold Obligations.LineBringsFrame
  intro s f awake quiet hunting least most taken
  refine ⟨taken.frameEnd f, (live_of_not_inReset (·.lineEvents (lineOf f)) awake).trans (congrArg _ ?_), rfl, rfl⟩
  rw [State.lineEvents_lineOf quiet hunting least most]
  exact State.checkSent_quiet ((State.frameEnd_tx _ f).trans quiet)

/-- Settles O6: each event is a step of the receiver, with its report. -/
theorem lineErrorsDiscard : Obligations.LineErrorsDiscard := by
  unfold Obligations.LineErrorsDiscard
  intro s time awake quiet dropped edged since
  refine ⟨fun between soon => ?_, fun between other late early => ?_, fun between other late => ?_, fun data eight => ?_,
    fun data eight full => ?_⟩
  · refine (exec_lineEvent awake quiet (.edge time) (Receiver.edge_soon between soon false)).trans (congrArg _ ?_)
    rw [Bool.and_false]
    rfl
  · exact exec_lineEvent awake quiet (.edge time) (Receiver.edge_gap between other late early false)
  · exact ⟨_, exec_lineEvent awake quiet (.edge time) (Receiver.edge_next between other late false), rfl, rfl⟩
  · exact exec_lineEvent awake quiet (.sample false) (Receiver.sample_framing data eight)
  · exact exec_lineEvent awake quiet (.sample true) (Receiver.sample_excess data eight full)

end Sys2Proof.Machine
end

-- ==== Proofs: the laws of the store ====
section
/-! SETTLES O57. What every step keeps of the store (R183 to R186): the latch is clear out of COMMISSION, no operation works on a
LOCKED slot, and a LOCKED slot stays as it is, until START's check looks at it. A calm operation meets none of it; what does is a
request that passes its gate, a completion and a reset, each of which works on no LOCKED slot. -/

namespace Sys2Proof.Machine

/-! ## Slots and operations -/

/-- R185: every LOCKED slot of `a` stands unchanged in `b`. -/
def LockedStay (a b : List Slot) : Prop := ∀ (i : Nat) (sl : Slot), a[i]? = some sl → sl.state = .locked → b[i]? = some sl

theorem LockedStay.refl (a : List Slot) : LockedStay a a := fun _ _ there _ => there

/-- A slot that is not LOCKED may change, or be none. -/
theorem LockedStay.modify {slots : List Slot} {n : Nat} (free : ∀ sl, slots[n]? = some sl → sl.state ≠ .locked)
    (f : Slot → Slot) : LockedStay slots (slots.modify n f) := by
  intro i sl there locked
  have other : n ≠ i := fun same => free sl (same ▸ there) locked
  rw [List.getElem?_modify, there]
  exact congrArg some (if_neg other)

/-- R184, R185: an operation may run out of START, on a slot that is not LOCKED. -/
def StoreOp.allowed (s : State) (op : StoreOp) : Prop :=
  s.comm.mode ≠ .start ∧ ∀ n, op.target = some n → 1 ≤ n ∧ ∀ sl, s.nv.slots[n - 1]? = some sl → sl.state ≠ .locked

theorem State.jobOk_iff (s : State) : s.jobOk ↔ ∀ j, s.store.job = some j → j.op.allowed s := Iff.rfl

/-- The slot that the running operation works on may change. -/
theorem State.jobOk.lockedStay {s : State} (ok : s.jobOk) {j : StoreJob} (job : s.store.job = some j) {n : Nat}
    (target : j.op.target = some n) (f : Slot → Slot) : LockedStay s.nv.slots (s.nv.slots.modify (n - 1) f) :=
  .modify ((ok j job).2 n target).2 f

theorem State.jobOk_idle {s : State} (idle : s.store.job = none) : s.jobOk := by
  intro j job
  rw [idle] at job
  cases job

theorem State.latchOk_clear {s : State} (clear : s.store.latch = false) : s.latchOk := by
  intro set
  rw [clear] at set
  cases set

/-! ## Changes that keep the laws -/

/-- Going from `s` to `t` keeps the law of the latch and that of the operation, and under them every LOCKED slot. -/
structure KeepsStore (s t : State) : Prop where
  latch : s.latchOk → t.latchOk
  job : s.jobOk → t.jobOk
  slots : s.jobOk → LockedStay s.nv.slots t.nv.slots

theorem KeepsStore.refl (s : State) : KeepsStore s s := ⟨id, id, fun _ => .refl _⟩

theorem KeepsStore.trans {s t u : State} (h : KeepsStore s t) (k : KeepsStore t u) : KeepsStore s u where
  latch ok := k.latch (h.latch ok)
  job ok := k.job (h.job ok)
  slots ok i sl there locked := k.slots (h.job ok) i sl (h.slots ok i sl there locked) locked

theorem Calm.keepsStore {s t : State} (h : Calm s t) : KeepsStore s t :=
  ⟨h.latch, h.jobOk, fun _ => by rw [h.nv]; exact .refl _⟩

/-- A change that meets neither the mode nor the store. -/
theorem KeepsStore.beside {s t : State} (mode : t.comm.mode = s.comm.mode) (nv : t.nv = s.nv) (store : t.store = s.store) :
    KeepsStore s t := by
  refine ⟨?_, ?_, fun _ => nv ▸ .refl _⟩
  · unfold State.latchOk
    rw [mode, store]
    exact id
  · unfold State.jobOk
    rw [mode, nv, store]
    exact id

theorem KeepsStore.ofSetAxis (s : State) (x : Axis) (a : AxisUnit) : KeepsStore s (s.setAxis x a) := by
  cases x <;> exact .beside rfl rfl rfl

/-- What reaches a part out of reset keeps the laws when its operation does; a part held in reset stays. -/
theorem live_keepsStore {f : State → State} {s t : State} (h : KeepsStore s (f s)) (e : live f s = .next t) :
    KeepsStore s t := by
  unfold live at e
  split at e <;> cases e
  · exact .refl s
  · exact h

/-! ## Position units, handshake and tick -/

theorem State.transition_keepsStore (s : State) (x : Axis) (a b : Bool) : KeepsStore s (s.transition x a b) := by
  unfold State.transition
  simp only
  split
  · exact .refl s
  · exact (KeepsStore.ofSetAxis s x _).trans (State.encoderSlip_calm _ x).keepsStore
  · split
    · exact (KeepsStore.ofSetAxis s x _).trans (State.encoderSlip_calm _ x).keepsStore
    · exact .ofSetAxis s x _

theorem State.takeMark_keepsStore (s : State) (x : Axis) : KeepsStore s (s.takeMark x) := by
  have captured (c : Capture) (n : Nat) :
      KeepsStore s { s.setAxis x { s.axis x with capture := some c } with fresh := n } :=
    (KeepsStore.ofSetAxis s x _).trans (.beside rfl rfl rfl)
  unfold State.takeMark
  simp only
  split
  · exact ((captured _ _).trans (.ofSetAxis _ x _)).trans
      ((State.setReferenced_calm _ x true).trans (State.stopAxis_calm _ x _)).keepsStore
  · exact (captured _ _).trans (State.encoderSlip_calm _ x).keepsStore
  · exact captured _ _
  · exact captured _ _

theorem State.switchCloses_keepsStore (s : State) : KeepsStore s s.switchCloses := by
  have closed : KeepsStore s { s with rake := { s.rake with refSwitch := true } } := .beside rfl rfl rfl
  unfold State.switchCloses
  split
  · exact .refl s
  · simp only
    split
    · exact closed.trans (State.takeMark_keepsStore _ _)
    · exact closed

theorem State.switchOpens_keepsStore (s : State) : KeepsStore s s.switchOpens := by
  have opened (l : Option Leg) : KeepsStore s { s with rake := { s.rake with refSwitch := false, leg := l } } :=
    .beside rfl rfl rfl
  unfold State.switchOpens
  split
  · simp only
    split
    · exact (opened _).trans (State.request_calm _ _ _).keepsStore
    · exact opened _
  · exact .refl s

theorem State.limitActive_keepsStore (s : State) (x : Axis) (d : Dir) : KeepsStore s (s.limitActive x d) := by
  unfold State.limitActive
  split
  · exact .refl s
  · simp only
    split
    · exact (KeepsStore.ofSetAxis s x _).trans (State.limitMet_calm _ x).keepsStore
    · exact .ofSetAxis s x _

theorem State.profileTick_keepsStore (s : State) : KeepsStore s s.profileTick := by
  obtain ⟨u, calm, ticked, -⟩ := s.profileTick_calm
  rw [ticked]
  exact KeepsStore.trans (t := { s with tickLeft := u.tickLeft, env := u.env }) (.beside rfl rfl rfl) calm.keepsStore

theorem State.readyActive_keepsStore (s : State) (x : Axis) : KeepsStore s (s.readyActive x) := by
  unfold State.readyActive
  split
  · exact .refl s
  · simp only
    split
    · exact (KeepsStore.ofSetAxis s x _).trans (State.readyTaken_calm _ x).keepsStore
    · exact .ofSetAxis s x _

theorem State.readyInactive_keepsStore (s : State) (x : Axis) : KeepsStore s (s.readyInactive x) := by
  unfold State.readyInactive
  split
  · simp only
    split
    · exact (KeepsStore.ofSetAxis s x _).trans (State.driveFault_calm _ x).keepsStore
    · exact .ofSetAxis s x _
  · exact .refl s

theorem State.chainOpens_keepsStore (s : State) : KeepsStore s s.chainOpens := by
  have opened : KeepsStore s { s with chainOpen := true } := .beside rfl rfl rfl
  unfold State.chainOpens
  split
  · exact .refl s
  · exact opened.trans (State.chainOpened_calm _).keepsStore

/-! ## Frames and commands -/

/-- A frame received keeps the laws when its hand-off does. -/
theorem State.receive_keepsStore (s : State) (frame : List Byte) (wf : Bool) (snd : Sender) {f : State → State}
    (h : ∀ t, KeepsStore t (f t)) : KeepsStore s (s.receive frame wf snd f) := by
  have heard : KeepsStore s (s.heard frame) := .beside rfl rfl rfl
  refine heard.trans ?_
  cases wf
  · exact (State.discard_calm _).keepsStore
  · show KeepsStore _ (State.sortFrame _ snd f)
    unfold State.sortFrame
    split
    · refine (State.checkDuplicate_calm _ snd).keepsStore.trans ?_
      simp only
      split
      · exact .refl _
      · exact h _
    · exact .refl _

theorem State.receiveCommand_keepsStore (s : State) (kind : Byte) (h : CommandHead) (args : List Byte) (defined : Bool)
    {owner : State → State × CmdOutcome} (k : ∀ t, KeepsStore t (owner t).1) :
    KeepsStore s (s.receiveCommand kind h args defined owner) := by
  refine State.receive_keepsStore s _ _ _ fun t => ?_
  unfold State.command
  split
  · refine KeepsStore.trans ?_ (State.giveOutcome_calm _ _ _ _).keepsStore
    split
    · exact .refl t
    · exact k t
  · exact .refl t

theorem State.ownConvert_keepsStore (s : State) (h : CommandHead) (layout : Byte) (delay : BitVec 16) :
    KeepsStore s (s.ownConvert h layout delay).1 := by
  unfold State.ownConvert
  split
  · exact .refl s
  · exact .beside rfl rfl rfl

/-! ## Service requests (R179 to R188) -/

/-- An answer begins no operation but one that may run. -/
def Answer.allowed (s : State) : Answer → Prop
  | .reply _ _ => True
  | .job op _ => op.allowed s

theorem State.answer_keepsStore {s : State} (n : Nat) {a : Answer} (h : a.allowed s) : KeepsStore s (s.answer n a) := by
  cases a with
  | reply o data => exact (s.handReply_calm n o data).keepsStore
  | job op time =>
    refine ⟨id, fun _ j job => ?_, fun _ => .refl _⟩
    cases job
    exact h

/-- A request's owner keeps the laws, and answers with no operation but one that may run. -/
def OwnerKeeps (owner : State → State × Answer) : Prop :=
  ∀ t : State, KeepsStore t (owner t).1 ∧ (owner t).2.allowed (owner t).1

theorem State.receiveRequest_keepsStore (s : State) (kind : Byte) (r : ServiceReq) {owner : State → State × Answer}
    (h : OwnerKeeps owner) : KeepsStore s (s.receiveRequest kind r owner) := by
  refine State.receive_keepsStore s _ _ _ fun t => ?_
  unfold State.service
  split
  · split
    · exact .refl t
    · next n _ =>
      refine KeepsStore.trans (t := { t with
        comm := { t.comm with jumper := r.jumper, strapLevel := r.straps }
        bus := t.bus.setPlace n (.reserved (keptOf kind r)) }) (.beside rfl rfl rfl) ?_
      simp only
      split
      · exact (State.handReply_calm _ _ _ _).keepsStore
      · exact (h _).1.trans (State.answer_keepsStore n (h _).2)
  · exact .refl t

/-- A request answered from the state as it stands. -/
theorem OwnerKeeps.reads {owner : State → State × Answer} (same : ∀ t, (owner t).1 = t)
    (replies : ∀ t, (owner t).2.allowed t) : OwnerKeeps owner := by
  intro t
  rw [same]
  exact ⟨.refl t, replies t⟩

/-- R183: a store request is judged past the gate of the latch, in COMMISSION. -/
theorem OwnerKeeps.gated {judge : State → Answer} (h : ∀ t, t.comm.mode ≠ .start → (judge t).allowed t) :
    OwnerKeeps fun t => (t, Machine.gated t.latchGate (judge t)) := by
  refine .reads (fun _ => rfl) fun t => ?_
  simp only [Machine.gated]
  split
  · trivial
  · next open_ => exact h t (by rw [State.latchGate_commission open_]; decide)

theorem State.ownReadPeers_allowed (s : State) (args : List Byte) : (s.ownReadPeers args).2.allowed s := by
  unfold State.ownReadPeers State.peersAnswer
  repeat' split
  all_goals trivial

theorem State.ownReadCapture_allowed (s : State) (args : List Byte) : (s.ownReadCapture args).2.allowed s := by
  unfold State.ownReadCapture
  repeat' split
  all_goals trivial

theorem State.ownReadSlot_allowed (s : State) (args : List Byte) : (s.ownReadSlot args).2.allowed s := by
  unfold State.ownReadSlot
  repeat' split
  all_goals trivial

/-- R179: the operation that ran goes on, out of START as before. -/
theorem State.enterCommission_keepsStore (s : State) : KeepsStore s s.enterCommission := by
  unfold State.enterCommission
  refine KeepsStore.trans ?_ (State.announce_calm _ s).keepsStore
  exact ⟨fun _ _ => rfl, fun ok j job => ⟨nofun, (ok j job).2⟩, fun _ => .refl _⟩

theorem ownCommissionEnter_keeps : OwnerKeeps State.ownCommissionEnter := by
  intro t
  unfold State.ownCommissionEnter
  split
  · exact ⟨.refl t, trivial⟩
  · split
    · exact ⟨.refl t, trivial⟩
    · exact ⟨t.enterCommission_keepsStore, trivial⟩
    · split
      · exact ⟨t.enterCommission_keepsStore, trivial⟩
      · exact ⟨.refl t, trivial⟩
    · exact ⟨.refl t, trivial⟩
    · exact ⟨.refl t, trivial⟩

theorem ownCommissionExit_keeps : OwnerKeeps State.ownCommissionExit := by
  refine fun t => ⟨t.ownCommissionExit_calm.keepsStore, ?_⟩
  unfold State.ownCommissionExit
  repeat' split
  all_goals trivial

theorem ownRestart_keeps : OwnerKeeps State.ownRestart := by
  refine fun t => ⟨t.ownRestart_calm.keepsStore, ?_⟩
  unfold State.ownRestart
  split <;> trivial

/-- R183: the first two checks find COMMISSION. -/
theorem State.writeGate_commission {s : State} (h : s.writeGate = none) : s.comm.mode = .commission := by
  unfold State.writeGate at h
  by_contra mode
  simp [mode] at h

/-- R183: the latch is set in COMMISSION alone. -/
theorem ownWriteEnable_keeps : OwnerKeeps State.ownWriteEnable := by
  intro t
  unfold State.ownWriteEnable
  split
  · exact ⟨.refl t, trivial⟩
  · next open_ => exact ⟨⟨fun _ _ => State.writeGate_commission open_, id, fun _ => .refl _⟩, trivial⟩

theorem ownConfigWrite_keeps (args : List Byte) : OwnerKeeps (State.ownConfigWrite · args) := by
  refine fun t => ⟨(t.ownConfigWrite_calm args).keepsStore, ?_⟩
  simp only [State.ownConfigWrite]
  repeat' split
  all_goals trivial

/-- A slot argument is 1 to 12, and names the slot of that number. -/
theorem State.slotArg_eq_some {s : State} {b : Byte} {n : Nat} {sl : Slot} :
    s.slotArg b = some (n, sl) ↔ n = b.toNat ∧ 1 ≤ n ∧ n ≤ 12 ∧ s.nv.slots[n - 1]? = some sl := by
  unfold State.slotArg slotNumber State.slot
  by_cases number : 1 ≤ b.toNat ∧ b.toNat ≤ Config.slotCount
  · have nonzero : b.toNat ≠ 0 := by omega
    simp only [if_pos number, Option.bind_some, if_neg nonzero, Option.map_eq_some_iff, Prod.mk.injEq]
    constructor
    · rintro ⟨own, there, rfl, rfl⟩
      exact ⟨rfl, number.1, number.2, there⟩
    · rintro ⟨rfl, -, -, there⟩
      exact ⟨sl, there, rfl, rfl⟩
  · simp only [if_neg number, Option.bind_none, reduceCtorEq, false_iff]
    rintro ⟨rfl, least, most, -⟩
    exact number ⟨least, most⟩

/-- An operation on the slot that a request names may run when that slot is not LOCKED. -/
theorem StoreOp.allowed_of_slotArg {s : State} {b : Byte} {n : Nat} {sl : Slot} {op : StoreOp} (mode : s.comm.mode ≠ .start)
    (named : s.slotArg b = some (n, sl)) (target : op.target = some n) (free : sl.state ≠ .locked) : op.allowed s := by
  refine ⟨mode, fun m own => ?_⟩
  cases target.symm.trans own
  obtain ⟨-, least, -, there⟩ := State.slotArg_eq_some.mp named
  refine ⟨least, fun held found => ?_⟩
  cases there.symm.trans found
  exact free

section
variable {s : State} (mode : s.comm.mode ≠ .start) (args : List Byte)
include mode

theorem State.judgeErase_allowed : (s.judgeErase args).allowed s := by
  unfold State.judgeErase
  split
  · split
    · trivial
    · next named =>
      split
      · trivial
      · next free => exact StoreOp.allowed_of_slotArg mode named rfl free
  · trivial

theorem State.judgeProgram_allowed : (s.judgeProgram args).allowed s := by
  unfold State.judgeProgram
  split
  · split
    · next named _ =>
      split
      · trivial
      · split
        · trivial
        · trivial
        · trivial
        all_goals
          next state =>
          split
          · trivial
          · exact StoreOp.allowed_of_slotArg mode named rfl (by rw [state]; decide)
    · trivial
  · trivial

theorem State.judgeFinalize_allowed : (s.judgeFinalize args).allowed s := by
  unfold State.judgeFinalize
  split
  · split
    · trivial
    · next named =>
      split
      · trivial
      · split
        · trivial
        · trivial
        · trivial
        all_goals
          next state => exact StoreOp.allowed_of_slotArg mode named rfl (by rw [state]; decide)
  · trivial

theorem State.judgeLock_allowed : (s.judgeLock args).allowed s := by
  unfold State.judgeLock
  split
  · split
    · trivial
    · next named =>
      split
      · next state => exact StoreOp.allowed_of_slotArg mode named rfl (by rw [state]; decide)
      all_goals trivial
  · trivial

theorem State.judgeCommit_allowed : (s.judgeCommit args).allowed s := by
  unfold State.judgeCommit
  simp only
  split
  · trivial
  · split
    · exact ⟨mode, nofun⟩
    · trivial

end

theorem State.rxByKind_keepsStore (s : State) (kind : Byte) (r : ServiceReq) : KeepsStore s (s.rxByKind kind r) := by
  unfold State.rxByKind
  split
  · refine s.receiveRequest_keepsStore _ r (.reads (fun _ => rfl) fun t => ?_)
    simp only [State.ownIdentify]
    split <;> trivial
  · exact s.receiveRequest_keepsStore _ r (.reads (fun _ => rfl) fun _ => trivial)
  · exact s.receiveRequest_keepsStore _ r (.reads (State.ownReadPeers_state · _) (State.ownReadPeers_allowed · _))
  · exact s.receiveRequest_keepsStore _ r (.reads (State.ownReadCapture_state · _) (State.ownReadCapture_allowed · _))
  · exact s.receiveRequest_keepsStore _ r (.reads (State.ownReadSlot_state · _) (State.ownReadSlot_allowed · _))
  · exact s.receiveRequest_keepsStore _ r ownCommissionEnter_keeps
  · exact s.receiveRequest_keepsStore _ r ownCommissionExit_keeps
  · exact s.receiveRequest_keepsStore _ r ownWriteEnable_keeps
  · exact s.receiveRequest_keepsStore _ r (.gated fun _ mode => State.judgeErase_allowed mode _)
  · exact s.receiveRequest_keepsStore _ r (.gated fun _ mode => State.judgeProgram_allowed mode _)
  · exact s.receiveRequest_keepsStore _ r (.gated fun _ mode => State.judgeFinalize_allowed mode _)
  · exact s.receiveRequest_keepsStore _ r (.gated fun _ mode => State.judgeLock_allowed mode _)
  · exact s.receiveRequest_keepsStore _ r (ownConfigWrite_keeps _)
  · exact s.receiveRequest_keepsStore _ r (.gated fun _ mode => State.judgeCommit_allowed mode _)
  · exact s.receiveRequest_keepsStore _ r ownRestart_keeps
  · exact s.receiveRequest_keepsStore _ r (.reads (fun _ => rfl) fun _ => trivial)

/-! ## Completions (R182 to R185) -/

/-- A completion may write any slot but a LOCKED one. -/
theorem State.finishJob_keepsStore {s : State} {nv : Nonvolatile} (h : s.jobOk → LockedStay s.nv.slots nv.slots) (place : Nat)
    (o : SvcOutcome) : KeepsStore s (({ s with nv := nv } : State).finishJob place o) := by
  refine KeepsStore.trans (t := { s with nv := nv, store := { latch := false, job := none } })
    ⟨fun _ => State.latchOk_clear rfl, fun _ => State.jobOk_idle rfl, h⟩ (State.handReply_calm _ _ _ _).keepsStore

theorem State.eraseEnds_keepsStore (s : State) : KeepsStore s s.eraseEnds := by
  unfold State.eraseEnds
  split
  · next job => exact State.finishJob_keepsStore (fun ok => ok.lockedStay job rfl _) _ _
  · exact .refl s

theorem State.programEnds_keepsStore (s : State) : KeepsStore s s.programEnds := by
  unfold State.programEnds
  split
  · next job => exact State.finishJob_keepsStore (fun ok => ok.lockedStay job rfl _) _ _
  · exact .refl s

theorem State.finalizeEnds_keepsStore (s : State) : KeepsStore s s.finalizeEnds := by
  unfold State.finalizeEnds
  split
  · next job =>
    split
    · exact State.finishJob_keepsStore (fun _ => .refl _) _ _
    · split
      · exact State.finishJob_keepsStore (fun _ => .refl _) _ _
      · exact State.finishJob_keepsStore (fun ok => ok.lockedStay job rfl _) _ _
  · exact .refl s

theorem State.lockEnds_keepsStore (s : State) : KeepsStore s s.lockEnds := by
  unfold State.lockEnds
  split
  · next job => exact State.finishJob_keepsStore (fun ok => ok.lockedStay job rfl _) _ _
  · exact .refl s

theorem State.commitEnds_keepsStore (s : State) : KeepsStore s s.commitEnds := by
  unfold State.commitEnds
  split
  · next bytes _ _ _ =>
    exact State.finishJob_keepsStore (nv := { s.nv with record := bytes ++ bytes16 (crc16 bytes), recordTorn := false })
      (fun _ => .refl _) _ _
  · exact .refl s

/-! ## The line -/

/-- A frame row is its frame, taken. -/
theorem exec_runFrame {c : Instr} (frame : c.sender ≠ none) (s : State) : exec c s = live (·.runFrame c) s := by
  cases c <;> first | rfl | exact absurd rfl frame

/-- A COMMAND is received with its own owner. -/
theorem State.runCommand_keepsStore (s : State) {c : Instr} {h : CommandHead} (head : c.commandHead = some h) :
    KeepsStore s (s.runFrame c) := by
  cases c
  case convert layout delay => exact s.receiveCommand_keepsStore _ _ _ _ fun t => t.ownConvert_keepsStore _ layout delay
  case cancel => exact s.receiveCommand_keepsStore _ _ _ _ fun t => t.ownCancel_calm.keepsStore
  case clearFault => exact s.receiveCommand_keepsStore _ _ _ _ fun t => t.ownClearFault_calm.keepsStore
  case home =>
    refine s.receiveCommand_keepsStore _ _ _ _ fun t => ?_
    split
    · exact (t.ownHome_calm _).keepsStore
    · exact .refl t
  case jog =>
    refine s.receiveCommand_keepsStore _ _ _ _ fun t => ?_
    split
    · exact (t.ownJog_calm _ _ _).keepsStore
    · exact .refl t
  case jogEnd =>
    refine s.receiveCommand_keepsStore _ _ _ _ fun t => ?_
    split
    · exact (t.ownJogEnd_calm _).keepsStore
    · exact .refl t
  all_goals cases head

/-- A frame that passed its checks keeps the laws, whatever its row. -/
theorem State.runFrame_keepsStore (s : State) (c : Instr) : KeepsStore s (s.runFrame c) := by
  cases sender : c.sender with
  | none => rw [s.runFrame_of_no_sender sender]; exact .refl s
  | some _ =>
    cases head : c.commandHead with
    | some h => exact s.runCommand_keepsStore head
    | none =>
      cases request : c.serviceReq with
      | some q =>
        rw [s.runFrame_request (kind := q.1) (r := q.2) request]
        exact s.rxByKind_keepsStore q.1 q.2
      | none =>
        cases c
        case statusFrame snd p => exact s.receive_keepsStore _ _ snd fun t => (t.statusArrival_calm _ p).keepsStore
        case stopFrame snd =>
          show KeepsStore s (s.rxStop snd)
          exact s.receive_keepsStore _ _ snd fun t => t.stopTaken_calm.keepsStore
        case enableFrame snd targets =>
          show KeepsStore s (s.rxEnable snd targets)
          exact s.receive_keepsStore _ _ snd fun t => (t.enableTaken_calm snd targets).keepsStore
        case serviceReplyFrame snd _ _ _ _ _ => exact s.receive_keepsStore _ _ snd fun t => .refl t
        all_goals simp [Instr.sender, Instr.commandHead, Instr.serviceReq] at sender head request

theorem State.lineEvent_keepsStore (s : State) (e : LineEvent) : KeepsStore s (s.lineEvent e) := by
  have taken (t : State) (r : RxReport) : KeepsStore t (t.takeReport r) := by
    cases r with
    | none => exact .refl t
    | discard => exact t.discard_calm.keepsStore
    | frame chars =>
      refine KeepsStore.trans (t := t.judgeFrame chars) ?_ (.beside rfl rfl rfl)
      unfold State.judgeFrame
      split
      · exact t.runFrame_keepsStore _
      · exact t.discard_calm.keepsStore
  unfold State.lineEvent
  exact (((s.readBack_calm e).keepsStore.trans (Calm.ofBus _ _).keepsStore).trans (taken _ _)).trans
    (State.checkSent_calm _).keepsStore

theorem State.lineEvents_keepsStore (s : State) (es : List LineEvent) : KeepsStore s (s.lineEvents es) := by
  induction es generalizing s with
  | nil => exact .refl s
  | cons e es ih => exact (s.lineEvent_keepsStore e).trans (ih _)

theorem State.withdrawAt_keepsStore (s : State) (bit : Nat) : KeepsStore s (s.withdrawAt bit) := by
  unfold State.withdrawAt
  split
  · exact .refl s
  · split
    · exact .refl s
    · exact (Calm.ofBus s _).keepsStore.trans (State.lineEvents_keepsStore _ _)

/-! ## Resets and time -/

/-- R180, R186: a reset tears nothing but what the operation under way works on, which is no LOCKED slot. -/
theorem State.jobOk.tear_lockedStay {s : State} (ok : s.jobOk) (fresh : Nat) :
    LockedStay s.nv.slots (s.nv.tear fresh s.store.job).slots := by
  cases job : s.store.job with
  | none => exact .refl _
  | some j =>
    obtain ⟨op, left, place⟩ := j
    cases op with
    | erase => exact ok.lockedStay job rfl _
    | program => exact ok.lockedStay job rfl _
    | finalize => exact .refl _
    | lock => exact ok.lockedStay job rfl _
    | commit => exact .refl _

/-- A reset leaves the store idle with its latch clear. -/
theorem KeepsStore.reset {s t : State} (latch : t.store.latch = false) (idle : t.store.job = none)
    (slots : s.jobOk → LockedStay s.nv.slots t.nv.slots) : KeepsStore s t :=
  ⟨fun _ => State.latchOk_clear latch, fun _ => State.jobOk_idle idle, slots⟩

theorem State.warmRestart_keepsStore (s : State) : KeepsStore s s.warmRestart := by
  unfold State.warmRestart
  split
  · exact .reset rfl rfl fun _ => .refl _
  · exact .refl s

theorem State.passMs_keepsStore (s : State) : KeepsStore s s.passMs := by
  have rested : KeepsStore s s.restLine := by
    unfold State.restLine
    split
    · exact .refl s
    · exact s.lineEvent_keepsStore _
  have passed (t : State) : KeepsStore t t.passTimers := by
    refine ⟨id, fun ok j job => ?_, fun _ => .refl _⟩
    obtain ⟨own, running, rfl⟩ := Option.map_eq_some_iff.mp job
    exact ok own running
  unfold State.passMs
  split
  · exact .refl s
  · exact rested.trans (passed _)

/-! ## Every step -/

/-- Every command but the end of START keeps the laws, and every LOCKED slot. -/
theorem exec_keepsStore {c : Instr} (start : ∀ straps, c ≠ .startEnd straps) {s t : State} (e : exec c s = .next t) :
    KeepsStore s t := by
  by_cases frame : c.sender = none
  case neg => exact live_keepsStore (s.runFrame_keepsStore c) (exec_runFrame frame s ▸ e)
  unfold exec at e
  cases c with
  | startEnd straps => exact absurd rfl (start straps)
  | coldReset pins => cases e; exact .reset rfl rfl fun ok => ok.tear_lockedStay _
  | resetTaken => cases e; exact .reset rfl rfl fun ok => ok.tear_lockedStay _
  | warmRestart => exact live_keepsStore s.warmRestart_keepsStore e
  | encoderTransition x a b => exact live_keepsStore (s.transition_keepsStore x a b) e
  | slewIndexMark => exact live_keepsStore (s.takeMark_keepsStore .slew) e
  | rakeSwitchClose => exact live_keepsStore s.switchCloses_keepsStore e
  | rakeSwitchOpen => exact live_keepsStore s.switchOpens_keepsStore e
  | endLimitActive x d => exact live_keepsStore (s.limitActive_keepsStore x d) e
  | endLimitInactive x d => exact live_keepsStore (.ofSetAxis s x _) e
  | profileTick => exact live_keepsStore s.profileTick_keepsStore e
  | driveReadyActive x => exact live_keepsStore (s.readyActive_keepsStore x) e
  | readyLimitExpiry x => exact live_keepsStore (s.readyLimitEnds_calm x).keepsStore e
  | brakeReleaseExpiry x => exact live_keepsStore (s.releaseEnds_calm x).keepsStore e
  | holdExpiry x => exact live_keepsStore (s.holdEnds_calm x).keepsStore e
  | brakeSetExpiry x => exact live_keepsStore (s.setEnds_calm x).keepsStore e
  | driveLoss x => exact live_keepsStore (s.readyInactive_keepsStore x) e
  | localStopChainOpen => exact live_keepsStore s.chainOpens_keepsStore e
  | localStopChainClose => exact live_keepsStore (.beside rfl rfl rfl) e
  | claimWindowExpiry => exact live_keepsStore s.windowExpired_calm.keepsStore e
  | zoneTimeout => exact live_keepsStore s.zoneWaitEnds_calm.keepsStore e
  | peerStale n => exact live_keepsStore (s.peerToStale_calm n.toNat).keepsStore e
  | peerLost n => exact live_keepsStore (s.peerToLost_calm n.toNat).keepsStore e
  | enableExpiry => exact live_keepsStore s.enableEnds_calm.keepsStore e
  | frameDiscard line => exact live_keepsStore (s.lineEvents_keepsStore line) e
  | eraseComplete => exact live_keepsStore s.eraseEnds_keepsStore e
  | programComplete => exact live_keepsStore s.programEnds_keepsStore e
  | finalizeComplete => exact live_keepsStore s.finalizeEnds_keepsStore e
  | lockComplete => exact live_keepsStore s.lockEnds_keepsStore e
  | commitComplete => exact live_keepsStore s.commitEnds_keepsStore e
  | transmitStart => exact live_keepsStore s.startTransmit_calm.keepsStore e
  | withdraw bit => exact live_keepsStore (s.withdrawAt_keepsStore bit) e
  | frameComplete => exact live_keepsStore s.completeFrame_calm.keepsStore e
  | statusDue => exact live_keepsStore s.dueTime_calm.keepsStore e
  | busSilent => exact live_keepsStore s.silenceEnds_calm.keepsStore e
  | holdOffExpiry => exact live_keepsStore s.holdOffExpires_calm.keepsStore e
  | stepTimeout => exact live_keepsStore s.stepTimeEnds_calm.keepsStore e
  | dwellEnd => exact live_keepsStore s.dwellEnds_calm.keepsStore e
  | stopLineAsserted => exact live_keepsStore s.lineAsserts_calm.keepsStore e
  | stopLineReleased => exact live_keepsStore s.lineReleases_calm.keepsStore e
  | pwmPeriodStart x => exact live_keepsStore (.ofSetAxis s x _) e
  | _ => cases frame

/-- What a step leaves of the laws and of the LOCKED slots, be it a step that takes START to its end. -/
def StoreStands (s t : State) : Prop :=
  t.latchOk ∧ t.jobOk ∧ ∀ (i : Nat) (sl : Slot), s.nv.slots[i]? = some sl → sl.state = .locked →
    ∃ sl', t.nv.slots[i]? = some sl' ∧ sl'.contents = sl.contents

theorem KeepsStore.stands {s t : State} (h : KeepsStore s t) (latch : s.latchOk) (job : s.jobOk) : StoreStands s t :=
  ⟨h.latch latch, h.job job, fun i sl there locked => ⟨sl, h.slots job i sl there locked, rfl⟩⟩

/-- R178, R186: START finds the store idle and the latch clear, and its check marks a slot BAD without touching what it holds. -/
theorem exec_startEnd_stands {s t : State} {straps : BitVec 5} (latch : s.latchOk) (job : s.jobOk)
    (e : exec (.startEnd straps) s = .next t) : StoreStands s t := by
  cases held : s.inReset with
  | true =>
    cases (show exec (.startEnd straps) s = .next s from if_pos held).symm.trans e
    exact (KeepsStore.refl s).stands latch job
  | false =>
    obtain ⟨unchanged, ends⟩ := startEnds s straps .slew held
    by_cases mode : s.comm.mode = .start
    · obtain ⟨u, run, -, -, nv, -, -, store, -⟩ := ends mode
      cases run.symm.trans e
      have clear : s.store.latch = false := Bool.eq_false_iff.mpr fun set => by rw [latch set] at mode; cases mode
      have idle : s.store.job = none := Option.eq_none_iff_forall_ne_some.mpr fun j running => (job j running).1 mode
      refine ⟨State.latchOk_clear (store ▸ clear), State.jobOk_idle (store ▸ idle), fun i sl there _ => ⟨sl.checked, ?_, rfl⟩⟩
      rw [nv]
      exact (List.getElem?_map ..).trans (congrArg _ there)
    · cases (unchanged mode).symm.trans e
      exact (KeepsStore.refl s).stands latch job

/-- Settles O57: the end of START apart, every command keeps the laws and the LOCKED slots, and so does a millisecond. -/
theorem storeLawsKept : Obligations.StoreLawsKept := by
  intro s t latch job e
  unfold step at e
  split at e
  · cases e
    exact s.passMs_keepsStore.stands latch job
  · next c queue _ =>
    have queued : KeepsStore s { s with pending := queue } := .beside rfl rfl rfl
    by_cases start : ∃ straps, c = .startEnd straps
    · obtain ⟨straps, rfl⟩ := start
      exact exec_startEnd_stands (s := { s with pending := queue }) (queued.latch latch) (queued.job job) e
    · exact (queued.trans (exec_keepsStore (fun straps same => start ⟨straps, same⟩) e)).stands latch job

end Sys2Proof.Machine
end

-- ==== Proofs: a step form reads back ====
section
/-! SETTLES O4. Each field of a step form is read back from the bytes that stand for it, whatever follows them (section 9.2, R184). -/

namespace Sys2Proof.Machine

/-! ## The fields -/

/-- A count inside the position range is its 3-byte field. -/
theorem toInt_toField24 {t : Int} (lo : posMin ≤ t) (hi : t ≤ posMax) : (toField24 t).toInt = t := by
  unfold toField24
  rw [BitVec.toInt_ofInt]
  exact Int.bmod_eq_of_le (by simpa using lo) (by simp only [posMax] at hi; omega)

theorem toNat_toByte {n : Nat} (h : n < 256) : (toByte n).toNat = n := by
  unfold toByte
  rw [BitVec.toNat_ofNat]
  exact Nat.mod_eq_of_lt h

theorem takePair_pairBytes {pair : Option (Int × Nat)}
    (fits : ∀ t v, pair = some (t, v) → posMin ≤ t ∧ t ≤ posMax ∧ v < 65536) (rest : List Byte) :
    takePair pair.isSome (pairBytes pair ++ rest) = some (pair, rest) := by
  cases pair with
  | none => rfl
  | some pair =>
    obtain ⟨t, v⟩ := pair
    obtain ⟨lo, hi, speed⟩ := fits t v rfl
    simp only [takePair, pairBytes, bytes24, bytes16, List.cons_append, List.nil_append, Option.isSome_some, if_true,
      join24_bytes24, join16_bytes16, toInt_toField24 lo hi, BitVec.toNat_ofNat, Nat.mod_eq_of_lt speed]

theorem takeWord_wordBytes {word : Option Nat} (fits : ∀ w, word = some w → w < 65536) (rest : List Byte) :
    takeWord word.isSome (wordBytes word ++ rest) = some (word, rest) := by
  cases word with
  | none => rfl
  | some w =>
    simp only [takeWord, wordBytes, bytes16, List.cons_append, List.nil_append, Option.isSome_some, if_true,
      join16_bytes16, BitVec.toNat_ofNat, Nat.mod_eq_of_lt (fits w rfl)]

/-- The steps of two conditions share a byte, the first in its upper half. -/
theorem toByte_halves {hi lo : Nat} (hhi : hi ≤ 15) (hlo : lo ≤ 15) :
    ((toByte (16 * hi + lo)).extractLsb' 4 4).toNat = hi ∧ ((toByte (16 * hi + lo)).extractLsb' 0 4).toNat = lo := by
  rw [BitVec.extractLsb'_toNat, BitVec.extractLsb'_toNat, toNat_toByte (by omega), Nat.shiftRight_eq_div_pow]
  omega

theorem takeConds_condBytes {conds : List (Nat × Nat)} (few : conds.length ≤ 2) (stations : ∀ c ∈ conds, c.1 ≤ 31)
    (steps : ∀ c ∈ conds, c.2 ≤ 15) (rest : List Byte) :
    takeConds conds.length (condBytes conds ++ rest) = some (conds, rest) := by
  have byte (c : Nat × Nat) (mem : c ∈ conds) : (toByte c.1).toNat = c.1 := toNat_toByte (by have := stations c mem; omega)
  match conds with
  | [] => rfl
  | [c] =>
    obtain ⟨upper, -⟩ := toByte_halves (steps c (by simp)) (Nat.zero_le 15)
    show some ([((toByte c.1).toNat, ((toByte (16 * c.2 + 0)).extractLsb' 4 4).toNat)], rest) = _
    rw [byte c (by simp), upper]
  | [c, d] =>
    obtain ⟨upper, lower⟩ := toByte_halves (steps c (by simp)) (steps d (by simp))
    show some ([((toByte c.1).toNat, ((toByte (16 * c.2 + d.2)).extractLsb' 4 4).toNat),
      ((toByte d.1).toNat, ((toByte (16 * c.2 + d.2)).extractLsb' 0 4).toNat)], rest) = _
    rw [byte c (by simp), byte d (by simp), upper, lower]
  | _ :: _ :: _ :: _ => simp at few

/-- The first byte of a step form: which fields follow, the order, and how many conditions. -/
def formFlags (slew rake dwell limit : Bool) (order : StepOrder) (conds : Nat) : Byte :=
  toByte ((if slew then 128 else 0) + (if rake then 64 else 0) + (if dwell then 32 else 0) + (if limit then 16 else 0) +
    4 * order.code + conds)

theorem formFlags_read (slew rake dwell limit : Bool) (order : StepOrder) {conds : Nat} (few : conds ≤ 2) :
    let flags := formFlags slew rake dwell limit order conds
    flags.getLsbD 7 = slew ∧ flags.getLsbD 6 = rake ∧ flags.getLsbD 5 = dwell ∧ flags.getLsbD 4 = limit ∧
      StepOrder.ofCode (flags.extractLsb' 2 2).toNat = some order ∧ (flags.extractLsb' 0 2).toNat = conds := by
  revert slew rake dwell limit
  interval_cases conds <;> cases order <;> decide

/-! ## The step -/

theorem StepRecord.form_eq (r : StepRecord) : r.form =
    formFlags r.slew.isSome r.rake.isSome r.dwell.isSome r.limit.isSome r.order r.conds.length ::
      (pairBytes r.slew ++ (pairBytes r.rake ++ (condBytes r.conds ++ (wordBytes r.dwell ++ wordBytes r.limit)))) := by
  unfold StepRecord.form formFlags
  simp only [List.append_assoc]

/-- R184: what a valid step's conditions, dwell and step time limit are within. -/
theorem StepRecord.valid_bounds {r : StepRecord} (valid : r.valid = true) :
    (∀ c ∈ r.conds, c.1 ≤ 31) ∧ (∀ d, r.dwell = some d → d < 65536) ∧ ∀ l, r.limit = some l → l < 65536 := by
  unfold StepRecord.valid at valid
  simp only [Bool.and_eq_true, List.all_eq_true, decide_eq_true_eq] at valid
  obtain ⟨⟨conds, dwell⟩, limit⟩ := valid
  refine ⟨fun c mem => (conds c mem).2, fun d same => ?_, fun l same => ?_⟩
  · rw [same] at dwell
    have := of_decide_eq_true dwell
    omega
  · rw [same] at limit
    have := of_decide_eq_true limit
    omega

/-- A step form is read, and what follows it is left. -/
theorem takeStep_form {r : StepRecord} (fits : r.fits) (rest : List Byte) : takeStep (r.form ++ rest) = some (r, rest) := by
  obtain ⟨valid, few, steps, slew, rake⟩ := fits
  obtain ⟨stations, dwell, limit⟩ := StepRecord.valid_bounds valid
  obtain ⟨b7, b6, b5, b4, order, count⟩ :=
    formFlags_read r.slew.isSome r.rake.isSome r.dwell.isSome r.limit.isSome r.order few
  rw [StepRecord.form_eq]
  simp only [List.cons_append, List.append_assoc, takeStep, order, b7, b6, b5, b4, count, Option.bind_some,
    takePair_pairBytes slew, takePair_pairBytes rake, takeConds_condBytes few stations steps, takeWord_wordBytes dwell,
    takeWord_wordBytes limit]
  exact if_pos valid

/-- Settles O4: the first step is read from the front, and the second from what is left. -/
theorem stepFormRoundTrip : Obligations.StepFormRoundTrip := by
  unfold Obligations.StepFormRoundTrip
  intro a b fitsA fitsB
  have alone {r : StepRecord} (fits : r.fits) : takeStep r.form = some (r, []) := by
    rw [← takeStep_form fits [], List.append_nil]
  refine ⟨?_, ?_⟩
  · rw [stepForms, alone fitsA]
  · obtain ⟨flags, fields, cons⟩ : ∃ x xs, b.form = x :: xs := ⟨_, _, b.form_eq⟩
    have second : takeStep (flags :: fields) = some (b, []) := cons ▸ alone fitsB
    rw [stepForms, takeStep_form fitsA, cons]
    simp only [second]

end Sys2Proof.Machine
end

-- ==== Proofs: the completions of the store ====
section
/-! SETTLES O52. What a completion writes (R182 to R185), the cells that PROGRAM_STEPS names, and what a FINALIZE_SLOT judges. -/

namespace Sys2Proof.Machine

/-! ## The reply of a completion (R164, R183) -/

@[simp] theorem Bus.setPlace_rx (b : Bus) (n : Nat) (p : Place) : (b.setPlace n p).rx = b.rx := by
  unfold Bus.setPlace
  split <;> rfl

@[simp] theorem Bus.startSilence_rx (b : Bus) : b.startSilence.rx = b.rx := by
  unfold Bus.startSilence
  split <;> rfl

@[simp] theorem Bus.startSilence_readyOrder (b : Bus) : b.startSilence.readyOrder = b.readyOrder := by
  unfold Bus.startSilence
  split <;> rfl

/-- The bus once the reply for a RESERVED place has been handed in. -/
def Bus.handed (b : Bus) (n : Nat) (frame : List Byte) : Bus :=
  ({ b.setPlace n (.ready frame) with readyOrder := b.readyOrder ++ [n] } : Bus).startSilence

@[simp] theorem Bus.handed_place (b : Bus) (n : Nat) (frame : List Byte) : (b.handed n frame).place n = .ready frame :=
  (Bus.startSilence_place _ n).trans (b.setPlace_place n _)

@[simp] theorem Bus.handed_readyOrder (b : Bus) (n : Nat) (frame : List Byte) :
    (b.handed n frame).readyOrder = b.readyOrder ++ [n] := Bus.startSilence_readyOrder _

@[simp] theorem Bus.handed_rx (b : Bus) (n : Nat) (frame : List Byte) : (b.handed n frame).rx = b.rx :=
  (Bus.startSilence_rx _).trans (b.setPlace_rx n _)

@[simp] theorem Bus.handed_tx (b : Bus) (n : Nat) (frame : List Byte) : (b.handed n frame).tx = b.tx :=
  (Bus.startSilence_tx _).trans (b.setPlace_tx n _)

/-- A completion with `nv` in the store: busy and the latch clear, and the reply READY in the place RESERVED for it. -/
theorem State.finishJob_reserved {s : State} {p : Nat} {q : ReplyTo} (place : s.bus.place p = .reserved q) {nv : Nonvolatile}
    (unitTag : nv.unitTag = s.nv.unitTag) (o : SvcOutcome) :
    ({ s with nv := nv } : State).finishJob p o = { s with
      nv := nv, store := { latch := false, job := none }
      bus := s.bus.handed p (frameBytes 5#3 s.self [q.requester.setWidth 8, q.kind, q.tag, o.code]) } := by
  unfold State.finishJob State.handReply
  simp only [place, State.replyFrame, State.self, State.station, unitTag, Bus.handed, Bus.setPlace_readyOrder]

/-! ## What is written (R184, R185) -/

/-- One slot changed is that slot written anew. -/
theorem State.modSlot_eq {s : State} {n : Nat} {sl : Slot} (there : s.nv.slots[n - 1]? = some sl) (f : Slot → Slot) :
    s.modSlot n f = { s with nv := { s.nv with slots := s.nv.slots.set (n - 1) (f sl) } } := by
  unfold State.modSlot
  rw [List.modify_eq_set_getElem?, there]
  rfl

@[simp] theorem putCells_length (first : Nat) (new cells : List Cell) : (putCells first new cells).length = cells.length :=
  List.length_mapIdx

theorem putCells_getElem? (first : Nat) (new cells : List Cell) (i : Nat) : (putCells first new cells)[i]? =
    cells[i]?.map fun c => if first ≤ i then new[i - first]?.getD c else c := List.getElem?_mapIdx

/-- R184: a named cell holds what was written to it. -/
theorem putCells_named {first i : Nat} {new cells : List Cell} {c : Cell} (named : new[i]? = some c)
    (inside : first + i < cells.length) : (putCells first new cells)[first + i]? = some c := by
  rw [putCells_getElem?, List.getElem?_eq_getElem inside]
  simp [named]

/-- R184: every other cell stays. -/
theorem putCells_other {first i : Nat} {new cells : List Cell} (other : i < first ∨ first + new.length ≤ i) :
    (putCells first new cells)[i]? = cells[i]? := by
  rw [putCells_getElem?]
  rcases other with before | after
  · simp [Nat.not_le.mpr before]
  · have none_ : new[i - first]? = none := List.getElem?_eq_none (by omega)
    simp [none_]

/-! ## What a FINALIZE_SLOT judges (R185) -/

/-- The step forms of the first cells, one after the other, a cell without a step giving none. -/
def Slot.forms (sl : Slot) (count : Nat) : List Byte :=
  (List.range count).flatMap fun i => ((sl.step? i).map StepRecord.form).getD []

theorem Slot.formsOf_of_steps {sl : Slot} {count : Nat} (steps : ∀ i, i < count → (sl.step? i).isSome) :
    sl.formsOf count = some (sl.forms count) := by
  induction count with
  | zero => rfl
  | succ n ih =>
    obtain ⟨r, step⟩ := Option.isSome_iff_exists.mp (steps n (Nat.lt_succ_self n))
    simp only [Slot.formsOf, ih fun i lt => steps i (Nat.lt_succ_of_lt lt), step, Slot.forms, List.range_succ,
      List.flatMap_append, List.flatMap_singleton, Option.map_some, Option.getD_some]

theorem Slot.formsOf_isSome {sl : Slot} {count : Nat} (some_ : (sl.formsOf count).isSome) {i : Nat} (lt : i < count) :
    (sl.step? i).isSome := by
  induction count with
  | zero => exact absurd lt (Nat.not_lt_zero i)
  | succ n ih =>
    unfold Slot.formsOf at some_
    split at some_
    · next forms step =>
      rcases Nat.lt_succ_iff_lt_or_eq.mp lt with before | rfl
      · exact ih (by rw [forms]; rfl) before
      · rw [step]; rfl
    · cases some_

/-- R185: the check holds when every counted cell holds a step and the CRC-16 of their forms is right. -/
theorem Slot.stepsCheck_iff (sl : Slot) (count : Nat) (check : BitVec 16) :
    sl.stepsCheck count check = true ↔ (∀ i, i < count → (sl.step? i).isSome) ∧ crc16 (sl.forms count) = check := by
  unfold Slot.stepsCheck
  constructor
  · intro good
    have steps (i : Nat) (lt : i < count) : (sl.step? i).isSome := by
      refine Slot.formsOf_isSome ?_ lt
      cases forms : sl.formsOf count with
      | none => rw [forms] at good; cases good
      | some _ => rfl
    rw [Slot.formsOf_of_steps steps] at good
    exact ⟨steps, of_decide_eq_true good⟩
  · rintro ⟨steps, crc⟩
    rw [Slot.formsOf_of_steps steps]
    exact decide_eq_true crc

/-- R185: another slot, PROGRAMMED or LOCKED, holds the layout. -/
theorem State.layoutTaken_iff (s : State) {n : Nat} (least : 1 ≤ n) (layout : Nat) :
    s.layoutTaken n layout = true ↔ ∃ j o, j ≠ n - 1 ∧ s.nv.slots[j]? = some o ∧
      (o.state = .programmed ∨ o.state = .locked) ∧ o.header.map (·.layout) = some layout := by
  simp only [State.layoutTaken, Slot.standsFor, List.any_eq_true, List.mem_range, Bool.and_eq_true, Bool.not_eq_true',
    decide_eq_false_iff_not, Option.any_eq_true, Bool.or_eq_true, decide_eq_true_eq]
  constructor
  · rintro ⟨j, -, other, o, there, holds⟩
    exact ⟨j, o, by omega, there, holds⟩
  · rintro ⟨j, o, other, there, holds⟩
    exact ⟨j, (List.getElem?_eq_some_iff.mp there).1, by omega, o, there, holds⟩

/-! ## The statement -/

/-- Settles O52: the running operation says what is written; the reply is that of every completion. -/
theorem storeCompletes : Obligations.StoreCompletes := by
  unfold Obligations.StoreCompletes
  intro s n left p sl q awake least there place running ended slotNow
  have completes {c : Instr} {f : State → State} {nv : Nonvolatile} (o : SvcOutcome) (row : exec c s = live f s)
      (unitTag : nv.unitTag = s.nv.unitTag) (finished : f s = ({ s with nv := nv } : State).finishJob p o) :
      ended c nv o.code := by
    refine ⟨_, ?_, s.bus.handed_place _ _, s.bus.handed_readyOrder _ _, s.bus.handed_rx _ _, s.bus.handed_tx _ _⟩
    rw [row, live_of_not_inReset f awake, finished, State.finishJob_reserved place unitTag]
  have slot : s.slot n = some sl := by
    rw [State.slot, if_neg (by omega), there]
  refine ⟨fun (job : s.store.job = _) => ?_,
    fun first steps (job : s.store.job = _) => ⟨putCells first (steps.map .programmed) sl.cells, ?_, ?_, ?_, ?_⟩,
    fun lay cnt chk (job : s.store.job = _) => ?_,
    fun (job : s.store.job = _) => ?_, fun bytes (job : s.store.job = _) => ?_⟩
  · refine completes (c := .eraseComplete) .ok rfl rfl ?_
    simp only [State.eraseEnds, job, State.modSlot_eq there]
    rfl
  · refine completes (c := .programComplete) .ok rfl rfl ?_
    simp only [State.programEnds, job, State.modSlot_eq there]
    rfl
  · exact putCells_length _ _ _
  · exact fun i st named inside => putCells_named (by rw [List.getElem?_map, named]; rfl) inside
  · exact fun i other => putCells_other (by rwa [List.length_map])
  · intro forms good elsewhere
    have judged : sl.stepsCheck cnt chk = true ↔ good := sl.stepsCheck_iff cnt chk
    have taken : s.layoutTaken n lay = true ↔ elsewhere := s.layoutTaken_iff least lay
    have judges : s.finalizeEnds =
        if !sl.stepsCheck cnt chk then s.finishJob p .checkMismatch
        else if s.layoutTaken n lay then s.finishJob p .refusedArgs
        else (s.modSlot n fun sl => { sl with
          held := .programmed, header := some { layout := lay, count := cnt, crc := chk } }).finishJob p .ok := by
      simp only [State.finalizeEnds, job, slot, Option.any_some]
    refine ⟨fun bad => ?_, fun ok held => ?_, fun ok free => ?_⟩
    · refine completes (c := .finalizeComplete) .checkMismatch rfl rfl (judges.trans (if_pos ?_))
      simpa using mt judged.mp bad
    all_goals
      have checked : ¬ (!sl.stepsCheck cnt chk) = true := by simp [judged.mpr ok]
      rw [if_neg checked] at judges
    · exact completes (c := .finalizeComplete) .refusedArgs rfl rfl (judges.trans (if_pos (taken.mpr held)))
    · refine completes (c := .finalizeComplete) .ok rfl rfl (judges.trans ((if_neg (mt taken.mp free)).trans ?_))
      rw [State.modSlot_eq there]
  · refine completes (c := .lockComplete) .ok rfl rfl ?_
    simp only [State.lockEnds, job, State.modSlot_eq there]
    rfl
  · refine completes (c := .commitComplete) .ok rfl rfl ?_
    simp only [State.commitEnds, job]

end Sys2Proof.Machine
end

-- ==== Proofs: the store requests ====
section
/-! SETTLES O51. The gates of the store requests (R182, R183), what each of them judges of its arguments and its slot (R184, R185),
what CONFIG_WRITE writes, and the field that a failed CONFIG_COMMIT names (R181, R182). -/

namespace Sys2Proof.Machine

/-! ## Answers of the state that a request finds (R164) -/

/-- A request whose owner has changed neither the bus nor the identity of the part is answered as from the state it found. -/
theorem State.reply_of_asked {s u : State} {kind : Byte} {r : ServiceReq} {n : Nat} (bus : u.bus = (s.asked kind r n).bus)
    (self : u.self = s.self) (o : SvcOutcome) (data : List Byte) :
    u.answer n (.reply o data) = { u with bus := (s.replied kind r n o.code.toNat data).bus } := by
  have place : u.bus.place n = .reserved (keptOf kind r) := bus ▸ s.asked_place kind r n
  refine (State.handReply_kept (s := s) place self o data).trans ?_
  rw [← State.asked_reply s kind r n o data]
  refine congrArg (fun b => { u with bus := b }) ?_
  show _ = ((s.asked kind r n).handReply n o data).bus
  rw [State.handReply_kept (s := s) (s.asked_place kind r n) rfl o data, bus]

/-! ## The gates (R182, R183) -/

theorem State.writeGate_disabled {s : State} (disabled : ¬ (s.comm.mode = .commission ∧ s.comm.jumper = true)) :
    s.writeGate = some .refusedState := if_pos (by rwa [← not_and_or])

section
variable {s : State} (enabled : s.comm.mode = .commission ∧ s.comm.jumper = true)
include enabled

theorem State.writeGate_busy (busy : s.store.job.isSome = true) : s.writeGate = some .busy := by
  simp [State.writeGate, enabled, busy]

theorem State.writeGate_open (idle : s.store.job = none) : s.writeGate = none := by
  simp [State.writeGate, enabled, idle]

theorem State.latchGate_clear (idle : s.store.job = none) (clear : s.store.latch = false) : s.latchGate = some .refusedWel := by
  simp [State.latchGate, State.writeGate_open enabled idle, clear]

theorem State.latchGate_open (idle : s.store.job = none) (set : s.store.latch = true) : s.latchGate = none := by
  simp [State.latchGate, State.writeGate_open enabled idle, set]

end

/-- What stops a request at the first two checks stops it at the third. -/
theorem State.latchGate_of_writeGate {s : State} {o : SvcOutcome} (stops : s.writeGate = some o) : s.latchGate = some o := by
  rw [State.latchGate, stops]

/-- R182, R183: how an owner of a store request stands to the gates; `latched` says that it asks for the latch. -/
structure OwnerGated (latched : Prop) (owner : State → State × Answer) : Prop where
  write : ∀ {t : State} {o : SvcOutcome}, t.writeGate = some o → owner t = (t, .reply o [])
  latch : latched → ∀ {t : State} {o : SvcOutcome}, t.latchGate = some o → owner t = (t, .reply o [])

theorem OwnerGated.of_latchGate (latched : Prop) (judge : State → Answer) :
    OwnerGated latched fun t => (t, gated t.latchGate (judge t)) where
  write stops := by rw [State.latchGate_of_writeGate stops]; rfl
  latch _ _ _ stops := by rw [stops]; rfl

theorem ownWriteEnable_gated : OwnerGated False State.ownWriteEnable :=
  ⟨fun stops => by rw [State.ownWriteEnable, stops], nofun⟩

theorem ownConfigWrite_gated (args : List Byte) : OwnerGated False (State.ownConfigWrite · args) :=
  ⟨fun stops => by simp only [State.ownConfigWrite, stops], nofun⟩

/-- R182, R183: kinds 8 to 14 go to an owner behind the gates; WRITE_ENABLE and CONFIG_WRITE do not ask for the latch. -/
theorem exec_storeRow {c : Instr} {kind : Byte} {r : ServiceReq} (request : c.serviceReq = some (kind, r)) (least : 8 ≤ kind.toNat)
    (most : kind.toNat ≤ 14) (s : State) : ∃ owner, exec c s = live (·.receiveRequest kind r owner) s ∧
      OwnerGated (kind ≠ 8 ∧ kind ≠ 13) owner := by
  have sent : c.sender ≠ none := by
    obtain ⟨sender, -⟩ := exec_serviceRow request s
    simp [sender]
  have row : exec c s = live (·.rxByKind kind r) s :=
    (exec_runFrame sent s).trans (live_congr (s.runFrame_request request))
  rw [row]
  obtain ⟨k, number⟩ : ∃ k, kind.toNat = k := ⟨_, rfl⟩
  rw [number] at least most
  cases byte_eq_of_toNat number
  interval_cases k
  · exact ⟨_, rfl, ownWriteEnable_gated.write, fun h => absurd rfl h.1⟩
  · exact ⟨_, rfl, .of_latchGate _ (·.judgeErase r.args)⟩
  · exact ⟨_, rfl, .of_latchGate _ (·.judgeProgram r.args)⟩
  · exact ⟨_, rfl, .of_latchGate _ (·.judgeFinalize r.args)⟩
  · exact ⟨_, rfl, .of_latchGate _ (·.judgeLock r.args)⟩
  · exact ⟨_, rfl, (ownConfigWrite_gated r.args).write, fun h => absurd rfl h.2⟩
  · exact ⟨_, rfl, .of_latchGate _ (·.judgeCommit r.args)⟩

/-! ## The judgements of a slot (R184, R185) -/

/-- R185: what LOCK_SLOT meets in slot `n`, by its state. -/
def lockJudgement (n : Nat) : SlotState → Answer
  | .programmed => .job (.lock n) 10
  | .locked => .reply .refusedLocked []
  | .erased => .reply .refusedState []
  | .partly => .reply .refusedState []
  | .bad => .reply .refusedState []

/-- R184: what PROGRAM_STEPS meets in slot `n`; `used` says that a named cell has been programmed. -/
def programJudgement (n first : Nat) (steps : List StepRecord) (used : Bool) : SlotState → Answer
  | .locked => .reply .refusedLocked []
  | .programmed => .reply .notErased []
  | .bad => .reply .notErased []
  | .erased => if used then .reply .notErased [] else .job (.program n first steps) 6
  | .partly => if used then .reply .notErased [] else .job (.program n first steps) 6

/-- R185: what a FINALIZE_SLOT in range meets in slot `n`, by its state. -/
def finalizeJudgement (n layout count : Nat) (check : BitVec 16) : SlotState → Answer
  | .locked => .reply .refusedLocked []
  | .programmed => .reply .refusedState []
  | .bad => .reply .refusedState []
  | .erased => .job (.finalize n layout count check) 10
  | .partly => .job (.finalize n layout count check) 10

section
variable {s : State} {b : Byte} {n : Nat} {sl : Slot} (named : s.slotArg b = some (n, sl))
include named

theorem State.judgeErase_slot : s.judgeErase [b] =
    if sl.state = .locked then .reply .refusedLocked [] else .job (.erase n) 40 := by
  simp only [State.judgeErase, named]

theorem State.judgeLock_slot : s.judgeLock [b] = lockJudgement n sl.state := by
  simp only [State.judgeLock, named]
  cases sl.state <;> rfl

theorem State.judgeProgram_excess {f : Byte} {forms : List Byte} {steps : List StepRecord} (read : stepForms forms = some steps)
    (excess : 16 < f.toNat + steps.length) : s.judgeProgram (b :: f :: forms) = .reply .refusedArgs [] := by
  simp only [State.judgeProgram, named, read]
  exact if_pos excess

theorem State.judgeProgram_slot {f : Byte} {forms : List Byte} {steps : List StepRecord} (read : stepForms forms = some steps)
    (room : f.toNat + steps.length ≤ 16) : s.judgeProgram (b :: f :: forms) =
      programJudgement n f.toNat steps (sl.namesProgrammed f.toNat steps.length) sl.state := by
  simp only [State.judgeProgram, named, read]
  rw [if_neg (Nat.not_lt.mpr room)]
  cases sl.state <;> rfl

theorem State.judgeFinalize_range {lay cnt c1 c0 : Byte}
    (outside : ¬ (1 ≤ lay.toNat ∧ lay.toNat ≤ 250 ∧ 1 ≤ cnt.toNat ∧ cnt.toNat ≤ 16)) :
    s.judgeFinalize [b, lay, cnt, c1, c0] = .reply .refusedArgs [] := by
  simp only [State.judgeFinalize, named]
  exact if_pos (by omega)

theorem State.judgeFinalize_slot {lay cnt c1 c0 : Byte}
    (inside : 1 ≤ lay.toNat ∧ lay.toNat ≤ 250 ∧ 1 ≤ cnt.toNat ∧ cnt.toNat ≤ 16) : s.judgeFinalize [b, lay, cnt, c1, c0] =
      finalizeJudgement n lay.toNat cnt.toNat (join16 c1 c0) sl.state := by
  simp only [State.judgeFinalize, named]
  rw [if_neg (by omega)]
  cases sl.state <;> rfl

end

/-- R184: a named cell that is not blank has been programmed since the last erase. -/
theorem Slot.namesProgrammed_iff (sl : Slot) (first n : Nat) :
    sl.namesProgrammed first n = true ↔ ¬ ∀ i, i < n → sl.cells[first + i]? = some .blank := by
  simp [Slot.namesProgrammed]

theorem State.slotArg_outside (s : State) {b : Byte} (outside : b = 0 ∨ 12 < b.toNat) : s.slotArg b = none := by
  rw [State.slotArg, slotNumber_of_outside outside, Option.bind_none]

/-! ## The working copy (R182) -/

/-- Bytes that fit are put in place of those at their offset. -/
theorem putBytes_eq {offset : Nat} {data bs : List Byte} (fits : offset + data.length ≤ bs.length) :
    putBytes offset data bs = bs.take offset ++ data ++ bs.drop (offset + data.length) := by
  refine List.ext_getElem? fun i => ?_
  have before : (bs.take offset).length = offset := by rw [List.length_take]; omega
  rw [putBytes, List.getElem?_mapIdx, List.append_assoc]
  rcases Nat.lt_or_ge i offset with low | high
  · rw [List.getElem?_append_left (by omega), List.getElem?_take_of_lt low]
    simp [Nat.not_le.mpr low]
  · rw [List.getElem?_append_right (by omega), before]
    rcases Nat.lt_or_ge (i - offset) data.length with within | after
    · have inside : i < bs.length := by omega
      rw [List.getElem?_append_left within, List.getElem?_eq_getElem inside, List.getElem?_eq_getElem within]
      simp [high]
    · have none_ : data[i - offset]? = none := List.getElem?_eq_none after
      rw [List.getElem?_append_right after, List.getElem?_drop,
        show offset + data.length + (i - offset - data.length) = i by omega]
      simp [none_]

theorem State.ownConfigWrite_past {s : State} (gate : s.writeGate = none) {off : Byte} {data : List Byte}
    (past : 152 < off.toNat + data.length) : s.ownConfigWrite (off :: data) = (s, .reply .refusedArgs []) := by
  simp only [State.ownConfigWrite, gate]
  exact if_pos (.inr (.inr past))

theorem State.ownConfigWrite_writes {s : State} (gate : s.writeGate = none) {off : Byte} {data : List Byte} (least : 1 ≤ data.length)
    (most : data.length ≤ 32) (fits : off.toNat + data.length ≤ 152) : s.ownConfigWrite (off :: data) =
      ({ s with comm := { s.comm with working := some (putBytes off.toNat data s.workingCopy) } }, .reply .ok []) := by
  simp only [State.ownConfigWrite, gate]
  exact if_neg (by omega)

/-- The working copy that a request finds is the one held before it. -/
theorem State.asked_workingCopy {s : State} {copy : List Byte} (working : s.comm.working = some copy) (kind : Byte)
    (r : ServiceReq) (n : Nat) : (s.asked kind r n).workingCopy = copy := by
  show s.comm.working.getD _ = copy
  rw [working, Option.getD_some]

/-! ## The field that a failed check names (R181, R182) -/

theorem fieldOf_le (o : Nat) : fieldOf o ≤ o := by
  unfold fieldOf
  split
  · omega
  · split <;> omega

/-- Offsets of bytes of a record, which are 0 to 151. -/
def InRecord (offsets : List Nat) : Prop := ∀ o ∈ offsets, o ≤ 151

/-- A relation ties fields of the record, at least one where it can fail. -/
def Relation.ties (q : Relation) : Prop := (q.2 = false → q.1 ≠ []) ∧ InRecord q.1

theorem peerOffsets_le {bs : List Byte} {i o : Nat} (entry : i < 4) (mem : o ∈ peerOffsets bs i) : o ≤ 151 := by
  obtain ⟨j, place, rfl⟩ := List.mem_map.mp mem
  have := List.mem_range.mp place
  simp only [zoneAt]
  omega

theorem axisFieldChecks_le {l : AxisLayout} (known : l = slewLayout ∨ l = rakeLayout) (bs : List Byte) :
    InRecord ((axisFieldChecks l bs).map (·.1)) := by
  rcases known with rfl | rfl
  · simp [InRecord, axisFieldChecks, slewLayout]
  · simp [InRecord, axisFieldChecks, rakeLayout]

theorem fieldChecks_le (own : Nat) (bs : List Byte) {f : FieldCheck} (mem : f ∈ fieldChecks own bs) : f.1 ≤ 151 := by
  have axis {l : AxisLayout} (known : l = slewLayout ∨ l = rakeLayout) (of : f ∈ axisFieldChecks l bs) : f.1 ≤ 151 :=
    axisFieldChecks_le known bs f.1 (List.mem_map_of_mem of)
  have zone {i : Nat} (entry : i < 4) (of : f ∈ zoneFieldChecks own bs i) : f.1 ≤ 151 := by
    rcases List.mem_append.mp of with range | peer
    · simp only [List.mem_cons, List.not_mem_nil, or_false] at range
      rcases range with rfl | rfl | rfl <;> simp only [zoneAt] <;> omega
    · obtain ⟨o, at_, rfl⟩ := List.mem_map.mp peer
      exact (fieldOf_le o).trans (peerOffsets_le entry at_)
  simp only [fieldChecks, List.mem_append, List.mem_flatMap, List.mem_map, List.mem_range, List.mem_cons,
    List.not_mem_nil, or_false] at mem
  rcases mem with ((((((slew | rfl) | rake) | rfl) | ⟨i, entry, of⟩) | rfl) | ⟨j, console, rfl⟩) | rfl | rfl
  · exact axis (.inl rfl) slew
  · exact Nat.le_of_ble_eq_true rfl
  · exact axis (.inr rfl) rake
  · exact Nat.le_of_ble_eq_true rfl
  · exact zone (by omega) of
  · exact Nat.le_of_ble_eq_true rfl
  · exact (fieldOf_le _).trans (by omega)
  · exact Nat.le_of_ble_eq_true rfl
  · exact Nat.le_of_ble_eq_true rfl

theorem mem_pairsOf {p : Nat × Nat} {l : List Nat} (mem : p ∈ pairsOf l) : p.1 ∈ l ∧ p.2 ∈ l := by
  induction l with
  | nil => cases mem
  | cons x xs ih =>
    rcases List.mem_append.mp mem with first | later
    · obtain ⟨y, there, rfl⟩ := List.mem_map.mp first
      exact ⟨List.mem_cons_self, List.mem_cons_of_mem x there⟩
    · exact ⟨List.mem_cons_of_mem x (ih later).1, List.mem_cons_of_mem x (ih later).2⟩

theorem differ_ties {bs : List Byte} {a b : Nat} (ha : a ≤ 151) (hb : b ≤ 151) : (differ bs (a, b)).ties := by
  refine ⟨fun _ => List.cons_ne_nil _ _, fun o mem => ?_⟩
  simp only [differ, List.mem_cons, List.not_mem_nil, or_false] at mem
  rcases mem with rfl | rfl
  · exact (fieldOf_le a).trans ha
  · exact (fieldOf_le b).trans hb

/-- The bytes at two offsets of a list differ. -/
theorem pairsOf_ties {bs : List Byte} {l : List Nat} (inside : InRecord l) {q : Relation} (mem : q ∈ (pairsOf l).map (differ bs)) :
    q.ties := by
  obtain ⟨p, pair, rfl⟩ := List.mem_map.mp mem
  exact differ_ties (inside _ (mem_pairsOf pair).1) (inside _ (mem_pairsOf pair).2)

theorem axisRelations_ties {l : AxisLayout} (known : l = slewLayout ∨ l = rakeLayout) {bs : List Byte} {q : Relation}
    (mem : q ∈ axisRelations l bs) : q.ties := by
  simp only [axisRelations, List.mem_cons, List.not_mem_nil, or_false] at mem
  rcases known with rfl | rfl <;> rcases mem with rfl | rfl | rfl | rfl | rfl | rfl | rfl <;>
    exact ⟨fun _ => List.cons_ne_nil _ _, by simp [InRecord, slewLayout, rakeLayout]⟩

theorem mapRelations_ties {bs : List Byte} {q : Relation} (mem : q ∈ mapRelations bs) : q.ties := by
  have peers : InRecord ((List.range (min 4 (u8 bs 83))).flatMap (peerOffsets bs)) := by
    intro o of
    obtain ⟨i, entry, at_⟩ := List.mem_flatMap.mp of
    have := List.mem_range.mp entry
    exact peerOffsets_le (by omega) at_
  have consoles : InRecord ((List.range (min 4 (u8 bs 144))).map (145 + ·)) := by
    intro o of
    obtain ⟨j, place, rfl⟩ := List.mem_map.mp of
    have := List.mem_range.mp place
    omega
  have zones : InRecord ((List.range (min 4 (u8 bs 83))).map zoneAt) := by
    intro o of
    obtain ⟨i, entry, rfl⟩ := List.mem_map.mp of
    have := List.mem_range.mp entry
    simp only [zoneAt]
    omega
  simp only [mapRelations, List.mem_append] at mem
  rcases mem with ((((range | number) | own) | six) | console) | both
  · obtain ⟨i, entry, rfl⟩ := List.mem_map.mp range
    have := List.mem_range.mp entry
    refine ⟨fun _ => List.cons_ne_nil _ _, fun o tied => ?_⟩
    simp only [zoneAt, List.mem_cons, List.not_mem_nil, or_false] at tied
    omega
  · exact pairsOf_ties zones number
  · obtain ⟨i, entry, of⟩ := List.mem_flatMap.mp own
    exact pairsOf_ties (fun o at_ => peers o (List.mem_flatMap.mpr ⟨i, entry, at_⟩)) of
  · rw [List.mem_singleton.mp six]
    refine ⟨fun fails none_ => ?_, fun o tied => ?_⟩
    · rw [List.map_eq_nil_iff.mp none_] at fails
      exact (nofun : true ≠ false) fails
    · obtain ⟨p, of, rfl⟩ := List.mem_map.mp tied
      exact (fieldOf_le p).trans (peers p of)
  · exact pairsOf_ties consoles console
  · obtain ⟨c, console, of⟩ := List.mem_flatMap.mp both
    obtain ⟨p, peer, rfl⟩ := List.mem_map.mp of
    exact differ_ties (peers p peer) (consoles c console)

theorem relations_ties {bs : List Byte} {q : Relation} (mem : q ∈ relations bs) : q.ties := by
  simp only [relations, List.mem_append] at mem
  rcases mem with (slew | rake) | map
  · exact axisRelations_ties (.inl rfl) slew
  · exact axisRelations_ties (.inr rfl) rake
  · exact mapRelations_ties map

/-- An offset found wrong is that of a field that fails its range, or one that a failed relation ties. -/
def WrongField (own : Nat) (bs : List Byte) (o : Nat) : Prop :=
  (∃ f ∈ fieldChecks own bs, f.2 = false ∧ o = f.1) ∨ ∃ q ∈ relations bs, q.2 = false ∧ o ∈ q.1

theorem wrongOffsets_wrong {own : Nat} {bs : List Byte} {o : Nat} (mem : o ∈ wrongOffsets own bs) : WrongField own bs o := by
  simp only [wrongOffsets, List.mem_append, List.mem_map, List.mem_filter, Bool.not_eq_true'] at mem
  rcases mem with ⟨f, ⟨of, fails⟩, rfl⟩ | ⟨q, ⟨of, fails⟩, rfl⟩
  · exact .inl ⟨f, of, fails, rfl⟩
  · refine .inr ⟨q, of, fails, ?_⟩
    have place := Nat.mod_lt (Config.blamedField q.1) (List.length_pos_iff.mpr ((relations_ties of).1 fails))
    rw [List.getD_eq_getElem _ _ place]
    exact List.getElem_mem place

theorem WrongField.le {own : Nat} {bs : List Byte} {o : Nat} (wrong : WrongField own bs o) : o ≤ 151 := by
  rcases wrong with ⟨f, of, -, rfl⟩ | ⟨q, of, -, tied⟩
  · exact fieldChecks_le own bs of
  · exact (relations_ties of).2 o tied

theorem fieldChecks_wrongOffsets {own : Nat} {bs : List Byte} {f : FieldCheck} (mem : f ∈ fieldChecks own bs) (fails : f.2 = false) :
    f.1 ∈ wrongOffsets own bs :=
  List.mem_append_left _ (List.mem_map_of_mem (List.mem_filter.mpr ⟨mem, by rw [fails]; rfl⟩))

theorem relations_wrongOffsets {own : Nat} {bs : List Byte} {q : Relation} (mem : q ∈ relations bs) (fails : q.2 = false) :
    q.1.getD (Config.blamedField q.1 % q.1.length) 0 ∈ wrongOffsets own bs :=
  List.mem_append_right _ (List.mem_map_of_mem (f := fun c : Relation => c.1.getD (Config.blamedField c.1 % c.1.length) 0)
    (List.mem_filter.mpr ⟨mem, by rw [fails]; rfl⟩))

/-- A copy that fails its checks has an offset found wrong. -/
theorem wrongOffsets_of_not_ok {own : Nat} {bs : List Byte} (bad : recordOk own bs = false) : ∃ o, o ∈ wrongOffsets own bs := by
  simp only [recordOk, Bool.and_eq_false_iff, List.all_eq_false, Bool.not_eq_true] at bad
  rcases bad with ⟨f, of, fails⟩ | ⟨q, of, fails⟩
  · exact ⟨_, fieldChecks_wrongOffsets of fails⟩
  · exact ⟨_, relations_wrongOffsets of fails⟩

/-- R182: the offset named is the least of those found wrong, and of the record's last. -/
theorem firstWrong_min (own : Nat) (bs : List Byte) :
    firstWrong own bs ∈ 151 :: wrongOffsets own bs ∧ ∀ o ∈ 151 :: wrongOffsets own bs, firstWrong own bs ≤ o :=
  List.min?_eq_some_iff.mp List.min?_cons'

theorem firstWrong_le {own : Nat} {bs : List Byte} {o : Nat} (mem : o ∈ wrongOffsets own bs) : firstWrong own bs ≤ o :=
  (firstWrong_min own bs).2 o (List.mem_cons_of_mem _ mem)

/-- R182: a failed check names an offset found wrong. -/
theorem firstWrong_wrong {own : Nat} {bs : List Byte} (bad : recordOk own bs = false) : WrongField own bs (firstWrong own bs) := by
  obtain ⟨o, mem⟩ := wrongOffsets_of_not_ok bad
  rcases List.mem_cons.mp (firstWrong_min own bs).1 with last | named
  · have same : firstWrong own bs = o := Nat.le_antisymm (firstWrong_le mem) (last ▸ (wrongOffsets_wrong mem).le)
    rw [same]
    exact wrongOffsets_wrong mem
  · exact wrongOffsets_wrong named

/-! ## The statement -/

section
variable {s : State} {r : ServiceReq} {n : Nat} (requested : s.requested r n) (restart : s.comm.restartPending = false)
include requested restart

/-- R183: WRITE_ENABLE sets the latch. -/
theorem exec_writeEnable_sets (gate : (s.asked 8 r n).writeGate = none) :
    exec (.writeEnable r) s = .next { s.replied 8 r n 1 [] with store := { s.store with latch := true } } := by
  refine (live_request requested restart 8 State.ownWriteEnable).trans (congrArg _ ?_)
  simp only [State.ownWriteEnable, gate]
  exact State.reply_of_asked (s := s) (kind := 8) (r := r)
    (u := { s.asked 8 r n with store := { s.store with latch := true } }) rfl rfl .ok []

/-- R182: CONFIG_WRITE replaces bytes of the working copy. -/
theorem exec_configWrite_writes (gate : (s.asked 13 r n).writeGate = none) {off : Byte} {data copy : List Byte}
    (args : r.args = off :: data) (working : s.comm.working = some copy) (whole : copy.length = 152) (least : 1 ≤ data.length)
    (most : data.length ≤ 32) (fits : off.toNat + data.length ≤ 152) :
    exec (.configWrite r) s = .next { s.replied 13 r n 1 [] with comm := { s.comm with
      jumper := r.jumper
      strapLevel := r.straps
      working := some (copy.take off.toNat ++ data ++ copy.drop (off.toNat + data.length)) } } := by
  refine (live_request requested restart 13 (State.ownConfigWrite · r.args)).trans (congrArg _ ?_)
  rw [args, State.ownConfigWrite_writes gate least most fits, State.asked_workingCopy working,
    putBytes_eq (whole ▸ fits)]
  exact State.reply_of_asked (s := s) (kind := 13) (r := r) (u := { s.asked 13 r n with
    comm := { (s.asked 13 r n).comm with
      working := some (copy.take off.toNat ++ data ++ copy.drop (off.toNat + data.length)) } }) rfl rfl .ok []

/-- R182: CONFIG_WRITE past the end of the copy. -/
theorem exec_configWrite_past (gate : (s.asked 13 r n).writeGate = none) {off : Byte} {data : List Byte}
    (args : r.args = off :: data) (past : 152 < off.toNat + data.length) :
    exec (.configWrite r) s = .next (s.replied 13 r n 6 []) := by
  refine live_request_reply requested restart (kind := 13) (owner := (State.ownConfigWrite · r.args)) (o := .refusedArgs) ?_
  rw [args]
  exact State.ownConfigWrite_past gate past

section
variable (ready : ∀ kind, (s.asked kind r n).latchGate = none)
include ready

/-- A request that passes the gate of the latch and is judged not to begin gets its reply. -/
theorem exec_judged_reply {c : Instr} {kind : Byte} {judge : State → Answer}
    (row : exec c s = live (·.receiveRequest kind r fun t => (t, gated t.latchGate (judge t))) s) (o : SvcOutcome)
    {data : List Byte} (judged : judge (s.asked kind r n) = .reply o data) :
    exec c s = .next (s.replied kind r n o.code.toNat data) := by
  refine row.trans (live_request_reply requested restart ?_)
  simp only [ready kind, judged, gated]

/-- A request that passes the gate of the latch and is judged to begin makes the store busy. -/
theorem exec_judged_job {c : Instr} {kind : Byte} {judge : State → Answer}
    (row : exec c s = live (·.receiveRequest kind r fun t => (t, gated t.latchGate (judge t))) s) {op : StoreOp} {time : Nat}
    (judged : judge (s.asked kind r n) = .job op time) : exec c s = .next (s.began kind r n op time) := by
  rw [row, live_request requested restart]
  simp only [ready kind, judged, gated]
  rfl

/-- R181, R182: CONFIG_COMMIT begins with a good copy, and names a field found wrong of another. -/
theorem exec_configCommit_judges {copy : List Byte} (args : r.args = []) (working : s.comm.working = some copy) :
    (recordOk r.straps.toNat copy = true → exec (.configCommit r) s = .next (s.began 14 r n (.commit copy) 30)) ∧
      (recordOk r.straps.toNat copy = false → exec (.configCommit r) s =
        .next (s.replied 14 r n 6 (bytes16 (BitVec.ofNat 16 (firstWrong r.straps.toNat copy))))) := by
  have judged : (s.asked 14 r n).judgeCommit r.args = if recordOk r.straps.toNat copy then .job (.commit copy) 30
      else .reply .refusedArgs (bytes16 (BitVec.ofNat 16 (firstWrong r.straps.toNat copy))) := by
    rw [State.judgeCommit, State.asked_workingCopy working, args]
    rfl
  refine ⟨fun good => exec_judged_job requested restart ready (c := .configCommit r) rfl (judged.trans (if_pos good)),
    fun bad => exec_judged_reply requested restart ready (c := .configCommit r) rfl .refusedArgs (judged.trans (if_neg ?_))⟩
  rw [bad]
  decide

section
variable {b : Byte} {sl : Slot} (named : ∀ kind, (s.asked kind r n).slotArg b = some (b.toNat, sl))
include named

/-- R184: ERASE_SLOT begins on any slot but a LOCKED one. -/
theorem exec_eraseSlot_judges (args : r.args = [b]) :
    (sl.state = .locked → exec (.eraseSlot r) s = .next (s.replied 9 r n 5 [])) ∧
      (sl.state ≠ .locked → exec (.eraseSlot r) s = .next (s.began 9 r n (.erase b.toNat) 40)) := by
  have judged : (s.asked 9 r n).judgeErase r.args = _ := args ▸ State.judgeErase_slot (named 9)
  refine ⟨fun locked => ?_, fun free => ?_⟩
  · exact exec_judged_reply requested restart ready (c := .eraseSlot r) rfl .refusedLocked (judged.trans (if_pos locked))
  · exact exec_judged_job requested restart ready (c := .eraseSlot r) rfl (judged.trans (if_neg free))

/-- R185: LOCK_SLOT begins on a PROGRAMMED slot alone. -/
theorem exec_lockSlot_judges (args : r.args = [b]) :
    (sl.state = .programmed → exec (.lockSlot r) s = .next (s.began 12 r n (.lock b.toNat) 10)) ∧
      (sl.state = .locked → exec (.lockSlot r) s = .next (s.replied 12 r n 5 [])) ∧
      (sl.state ≠ .locked → sl.state ≠ .programmed → exec (.lockSlot r) s = .next (s.replied 12 r n 3 [])) := by
  have judged : (s.asked 12 r n).judgeLock r.args = _ := args ▸ State.judgeLock_slot (named 12)
  refine ⟨fun programmed => ?_, fun locked => ?_, fun unlocked unprogrammed => ?_⟩
  · exact exec_judged_job requested restart ready (c := .lockSlot r) rfl (judged.trans (congrArg _ programmed))
  · exact exec_judged_reply requested restart ready (c := .lockSlot r) rfl .refusedLocked (judged.trans (congrArg _ locked))
  · refine exec_judged_reply requested restart ready (c := .lockSlot r) rfl .refusedState (judged.trans ?_)
    cases state : sl.state with
    | programmed => exact absurd state unprogrammed
    | locked => exact absurd state unlocked
    | _ => rfl

/-- R184: PROGRAM_STEPS begins on an ERASED or PARTLY slot whose named cells are blank. -/
theorem exec_programSteps_judges {f : Byte} {forms : List Byte} {steps : List StepRecord} (args : r.args = b :: f :: forms)
    (read : stepForms forms = some steps) :
    let unused : Prop := ∀ i, i < steps.length → sl.cells[f.toNat + i]? = some .blank
    (16 < f.toNat + steps.length → exec (.programSteps r) s = .next (s.replied 10 r n 6 [])) ∧
      (f.toNat + steps.length ≤ 16 →
        (sl.state = .locked → exec (.programSteps r) s = .next (s.replied 10 r n 5 [])) ∧
        (sl.state = .programmed ∨ sl.state = .bad ∨ (sl.state ≠ .locked ∧ ¬ unused) →
          exec (.programSteps r) s = .next (s.replied 10 r n 8 [])) ∧
        (sl.state = .erased ∨ sl.state = .partly → unused →
          exec (.programSteps r) s = .next (s.began 10 r n (.program b.toNat f.toNat steps) 6))) := by
  intro unused
  have names : sl.namesProgrammed f.toNat steps.length = true ↔ ¬ unused := sl.namesProgrammed_iff _ _
  have excess := State.judgeProgram_excess (named 10) (f := f) read
  have judged := State.judgeProgram_slot (named 10) (f := f) read
  rw [← args] at excess judged
  refine ⟨fun past => ?_, fun room => ⟨fun locked => ?_, fun taken => ?_, fun blank free => ?_⟩⟩
  · exact exec_judged_reply requested restart ready (c := .programSteps r) rfl .refusedArgs (excess past)
  · exact exec_judged_reply requested restart ready (c := .programSteps r) rfl .refusedLocked
      ((judged room).trans (congrArg _ locked))
  · refine exec_judged_reply requested restart ready (c := .programSteps r) rfl .notErased ((judged room).trans ?_)
    rcases taken with state | state | ⟨unlocked, used⟩
    · exact congrArg _ state
    · exact congrArg _ state
    · rw [names.mpr used]
      cases state : sl.state with
      | locked => exact absurd state unlocked
      | _ => rfl
  · refine exec_judged_job requested restart ready (c := .programSteps r) rfl ((judged room).trans ?_)
    rw [Bool.eq_false_iff.mpr fun used => names.mp used free]
    rcases blank with state | state <;> exact congrArg _ state

/-- R185: FINALIZE_SLOT begins on an ERASED or PARTLY slot, for a layout and a count in range. -/
theorem exec_finalizeSlot_judges {lay cnt c1 c0 : Byte} (args : r.args = [b, lay, cnt, c1, c0]) :
    let fits : Prop := 1 ≤ lay.toNat ∧ lay.toNat ≤ 250 ∧ 1 ≤ cnt.toNat ∧ cnt.toNat ≤ 16
    (¬ fits → exec (.finalizeSlot r) s = .next (s.replied 11 r n 6 [])) ∧
      (fits → sl.state = .locked → exec (.finalizeSlot r) s = .next (s.replied 11 r n 5 [])) ∧
      (fits → sl.state = .programmed ∨ sl.state = .bad → exec (.finalizeSlot r) s = .next (s.replied 11 r n 3 [])) ∧
      (fits → sl.state = .erased ∨ sl.state = .partly → exec (.finalizeSlot r) s =
        .next (s.began 11 r n (.finalize b.toNat lay.toNat cnt.toNat (join16 c1 c0)) 10)) := by
  intro fits
  have range := State.judgeFinalize_range (named 11) (lay := lay) (cnt := cnt) (c1 := c1) (c0 := c0)
  have judged := State.judgeFinalize_slot (named 11) (lay := lay) (cnt := cnt) (c1 := c1) (c0 := c0)
  rw [← args] at range judged
  refine ⟨fun outside => ?_, fun inside locked => ?_, fun inside stands => ?_, fun inside fresh => ?_⟩
  · exact exec_judged_reply requested restart ready (c := .finalizeSlot r) rfl .refusedArgs (range outside)
  · exact exec_judged_reply requested restart ready (c := .finalizeSlot r) rfl .refusedLocked
      ((judged inside).trans (congrArg _ locked))
  · refine exec_judged_reply requested restart ready (c := .finalizeSlot r) rfl .refusedState ((judged inside).trans ?_)
    rcases stands with state | state <;> exact congrArg _ state
  · refine exec_judged_job requested restart ready (c := .finalizeSlot r) rfl ((judged inside).trans ?_)
    rcases fresh with state | state <;> exact congrArg _ state

end

/-- R183: a slot argument outside 1 to 12. -/
theorem exec_slotOutside_refuses {b : Byte} (args : r.args = [b]) (outside : b = 0 ∨ 12 < b.toNat) :
    exec (.eraseSlot r) s = .next (s.replied 9 r n 6 []) ∧ exec (.lockSlot r) s = .next (s.replied 12 r n 6 []) := by
  have unnamed (kind : Byte) : (s.asked kind r n).slotArg b = none := State.slotArg_outside _ outside
  refine ⟨exec_judged_reply requested restart ready (c := .eraseSlot r) rfl .refusedArgs ?_,
    exec_judged_reply requested restart ready (c := .lockSlot r) rfl .refusedArgs ?_⟩
  · simp only [args, State.judgeErase, unnamed]
  · simp only [args, State.judgeLock, unnamed]

end

end

/-- Settles O51: the gates in order, then what each owner judges of the state it finds. -/
theorem storeRequests : Obligations.StoreRequests := by
  unfold Obligations.StoreRequests
  intro s c k r n requested restart enabled open_ own
  have gate (kind : Byte) (on : enabled) (idle : s.store.job = none) : (s.asked kind r n).writeGate = none :=
    State.writeGate_open (s := s.asked kind r n) on idle
  have ready (h : open_) (kind : Byte) : (s.asked kind r n).latchGate = none :=
    State.latchGate_open (s := s.asked kind r n) h.1 h.2.1 h.2.2
  refine ⟨fun request least most => ?_, fun on idle => exec_writeEnable_sets requested restart (gate 8 on idle),
    fun off data copy on idle args working whole => ⟨?_, exec_configWrite_past requested restart (gate 13 on idle) args⟩,
    fun copy h args working => ?_, fun b f lay cnt c1 c0 sl h least most there => ?_,
    fun b h => exec_slotOutside_refuses requested restart (ready h)⟩
  · obtain ⟨owner, row, gates⟩ := exec_storeRow request least most s
    have stops {o : SvcOutcome} (answer : owner (s.asked k r n) = (s.asked k r n, .reply o [])) :
        exec c s = .next (s.replied k r n o.code.toNat []) := row.trans (live_request_reply requested restart answer)
    refine ⟨fun off => ?_, fun on busy => ?_, fun on idle clear eight thirteen => ?_⟩
    · exact stops (o := .refusedState) (gates.write (State.writeGate_disabled off))
    · exact stops (o := .busy) (gates.write (State.writeGate_busy on busy))
    · exact stops (o := .refusedWel) (gates.latch ⟨eight, thirteen⟩ (State.latchGate_clear on idle clear))
  · exact exec_configWrite_writes requested restart (gate 13 on idle) args working whole
  · obtain ⟨begins, fails⟩ := exec_configCommit_judges requested restart (ready h) args working
    exact ⟨begins, fun bad => ⟨firstWrong own copy, fails bad, fun f of wrong => firstWrong_le (fieldChecks_wrongOffsets of wrong),
      firstWrong_wrong bad⟩⟩
  · have named (kind : Byte) : (s.asked kind r n).slotArg b = some (b.toNat, sl) :=
      State.slotArg_eq_some.mpr ⟨rfl, least, most, there⟩
    refine ⟨fun args => ?_, fun _ _ args read => exec_programSteps_judges requested restart (ready h) named args read,
      fun args => exec_finalizeSlot_judges requested restart (ready h) named args⟩
    obtain ⟨eraseLocked, erases⟩ := exec_eraseSlot_judges requested restart (ready h) named args
    exact ⟨eraseLocked, erases, exec_lockSlot_judges requested restart (ready h) named args⟩

end Sys2Proof.Machine
end

-- ==== Proofs: the queue ====
section
/-! SUPPORT. No command takes from the queue (log entry 23): a calm operation leaves it by `Calm.pending`, the others set an axis
or another part beside it, and a reset carries it over. That every command completes is `exec_completes`. -/

namespace Sys2Proof.Machine

/-- What reaches a part out of reset leaves the queue when its operation does; a part held in reset stays. -/
theorem live_keepsQueue {f : State → State} {s t : State} (e : live f s = .next t) (h : (f s).pending = s.pending) :
    t.pending = s.pending := by
  unfold live at e
  split at e <;> cases e
  · rfl
  · exact h

/-- An axis set, and a calm operation after it. -/
theorem Calm.pending_of_setAxis {s t : State} {x : Axis} {a : AxisUnit} (h : Calm (s.setAxis x a) t) :
    t.pending = s.pending :=
  h.pending.trans (s.setAxis_pending x a)

/-! ## Position units, handshake and tick -/

theorem State.transition_keepsQueue (s : State) (x : Axis) (a b : Bool) : (s.transition x a b).pending = s.pending := by
  unfold State.transition
  simp only
  split
  · rfl
  · exact (State.encoderSlip_calm _ x).pending_of_setAxis
  · split
    · exact (State.encoderSlip_calm _ x).pending_of_setAxis
    · exact s.setAxis_pending x _

theorem State.takeMark_keepsQueue (s : State) (x : Axis) : (s.takeMark x).pending = s.pending := by
  have captured (c : Capture) (n : Nat) :
      ({ s.setAxis x { s.axis x with capture := some c } with fresh := n } : State).pending = s.pending :=
    s.setAxis_pending x _
  unfold State.takeMark
  simp only
  split
  · exact ((State.setReferenced_calm _ x true).trans (State.stopAxis_calm _ x _)).pending_of_setAxis.trans (captured _ _)
  · exact (State.encoderSlip_calm _ x).pending.trans (captured _ _)
  · exact captured _ _
  · exact captured _ _

theorem State.switchCloses_keepsQueue (s : State) : s.switchCloses.pending = s.pending := by
  unfold State.switchCloses
  split
  · rfl
  · simp only
    split
    · exact State.takeMark_keepsQueue _ _
    · rfl

theorem State.switchOpens_keepsQueue (s : State) : s.switchOpens.pending = s.pending := by
  unfold State.switchOpens
  split
  · simp only
    split
    · exact (State.request_calm _ _ _).pending
    · rfl
  · rfl

theorem State.limitActive_keepsQueue (s : State) (x : Axis) (d : Dir) : (s.limitActive x d).pending = s.pending := by
  unfold State.limitActive
  split
  · rfl
  · simp only
    split
    · exact (State.limitMet_calm _ x).pending_of_setAxis
    · exact s.setAxis_pending x _

theorem State.profileTick_keepsQueue (s : State) : s.profileTick.pending = s.pending := by
  obtain ⟨u, calm, ticked, -⟩ := s.profileTick_calm
  rw [ticked]
  exact calm.pending

theorem State.readyActive_keepsQueue (s : State) (x : Axis) : (s.readyActive x).pending = s.pending := by
  unfold State.readyActive
  split
  · rfl
  · simp only
    split
    · exact (State.readyTaken_calm _ x).pending_of_setAxis
    · exact s.setAxis_pending x _

theorem State.readyInactive_keepsQueue (s : State) (x : Axis) : (s.readyInactive x).pending = s.pending := by
  unfold State.readyInactive
  split
  · simp only
    split
    · exact (State.driveFault_calm _ x).pending_of_setAxis
    · exact s.setAxis_pending x _
  · rfl

theorem State.chainOpens_keepsQueue (s : State) : s.chainOpens.pending = s.pending := by
  unfold State.chainOpens
  split
  · rfl
  · exact (State.chainOpened_calm _).pending

/-! ## Frames and commands -/

/-- A frame received leaves the queue when its hand-off does. -/
theorem State.receive_keepsQueue (s : State) (frame : List Byte) (wf : Bool) (snd : Sender) {f : State → State}
    (h : ∀ t, (f t).pending = t.pending) : (s.receive frame wf snd f).pending = s.pending := by
  cases wf
  · exact (State.discard_calm _).pending
  · show (State.sortFrame _ snd f).pending = _
    unfold State.sortFrame
    split
    · have sorted (t : State) : (t.checkDuplicate snd).pending = t.pending := (t.checkDuplicate_calm snd).pending
      simp only
      split
      · exact sorted _
      · exact (h _).trans (sorted _)
    · rfl

/-- A command received leaves the queue when its owner does. -/
theorem State.receiveCommand_keepsQueue (s : State) (kind : Byte) (h : CommandHead) (args : List Byte) (defined : Bool)
    {owner : State → State × CmdOutcome} (k : ∀ t, (owner t).1.pending = t.pending) :
    (s.receiveCommand kind h args defined owner).pending = s.pending := by
  refine State.receive_keepsQueue s _ _ _ fun t => ?_
  unfold State.command
  split
  · refine (State.giveOutcome_calm _ _ _ _).pending.trans ?_
    split
    · rfl
    · exact k t
  · rfl

theorem State.ownConvert_keepsQueue (s : State) (h : CommandHead) (layout : Byte) (delay : BitVec 16) :
    (s.ownConvert h layout delay).1.pending = s.pending := by
  unfold State.ownConvert
  split <;> rfl

/-- A COMMAND leaves the queue, whatever its kind. -/
theorem State.runCommand_keepsQueue (s : State) {c : Instr} {h : CommandHead} (head : c.commandHead = some h) :
    (s.runFrame c).pending = s.pending := by
  cases c
  case convert layout delay => exact s.receiveCommand_keepsQueue _ _ _ _ fun t => t.ownConvert_keepsQueue _ layout delay
  case cancel => exact s.receiveCommand_keepsQueue _ _ _ _ fun t => t.ownCancel_calm.pending
  case clearFault => exact s.receiveCommand_keepsQueue _ _ _ _ fun t => t.ownClearFault_calm.pending
  case home =>
    refine s.receiveCommand_keepsQueue _ _ _ _ fun t => ?_
    split
    · exact (t.ownHome_calm _).pending
    · rfl
  case jog =>
    refine s.receiveCommand_keepsQueue _ _ _ _ fun t => ?_
    split
    · exact (t.ownJog_calm _ _ _).pending
    · rfl
  case jogEnd =>
    refine s.receiveCommand_keepsQueue _ _ _ _ fun t => ?_
    split
    · exact (t.ownJogEnd_calm _).pending
    · rfl
  all_goals cases head

/-! ## Service requests -/

theorem State.answer_keepsQueue (s : State) (n : Nat) (a : Answer) : (s.answer n a).pending = s.pending := by
  cases a with
  | reply o data => exact (s.handReply_calm n o data).pending
  | job op time => rfl

/-- A service request received leaves the queue when its owner does. -/
theorem State.receiveRequest_keepsQueue (s : State) (kind : Byte) (r : ServiceReq) {owner : State → State × Answer}
    (h : ∀ t, (owner t).1.pending = t.pending) : (s.receiveRequest kind r owner).pending = s.pending := by
  refine State.receive_keepsQueue s _ _ _ fun t => ?_
  unfold State.service
  split
  · split
    · rfl
    · simp only
      split
      · exact (State.handReply_calm _ _ _ _).pending
      · exact (State.answer_keepsQueue _ _ _).trans (h _)
  · rfl

theorem State.enterCommission_keepsQueue (s : State) : s.enterCommission.pending = s.pending :=
  (State.announce_calm _ s).pending

theorem State.ownCommissionEnter_keepsQueue (s : State) : s.ownCommissionEnter.1.pending = s.pending := by
  unfold State.ownCommissionEnter
  split
  · rfl
  · split
    · rfl
    · exact s.enterCommission_keepsQueue
    · split
      · exact s.enterCommission_keepsQueue
      · rfl
    · rfl
    · rfl

theorem State.ownWriteEnable_keepsQueue (s : State) : s.ownWriteEnable.1.pending = s.pending := by
  unfold State.ownWriteEnable
  split <;> rfl

/-- A service request leaves the queue, whatever its kind. -/
theorem State.rxByKind_keepsQueue (s : State) (kind : Byte) (r : ServiceReq) : (s.rxByKind kind r).pending = s.pending := by
  have fixed (kind : Byte) {owner : State → State × Answer} (same : ∀ t, (owner t).1 = t) :
      (s.receiveRequest kind r owner).pending = s.pending :=
    s.receiveRequest_keepsQueue kind r fun t => congrArg State.pending (same t)
  unfold State.rxByKind
  split
  · exact fixed _ fun _ => rfl
  · exact fixed _ fun _ => rfl
  · exact fixed _ (State.ownReadPeers_state · _)
  · exact fixed _ (State.ownReadCapture_state · _)
  · exact fixed _ (State.ownReadSlot_state · _)
  · exact s.receiveRequest_keepsQueue _ r State.ownCommissionEnter_keepsQueue
  · exact s.receiveRequest_keepsQueue _ r fun t => t.ownCommissionExit_calm.pending
  · exact s.receiveRequest_keepsQueue _ r State.ownWriteEnable_keepsQueue
  · exact fixed _ fun _ => rfl
  · exact fixed _ fun _ => rfl
  · exact fixed _ fun _ => rfl
  · exact fixed _ fun _ => rfl
  · exact s.receiveRequest_keepsQueue _ r fun t => (t.ownConfigWrite_calm _).pending
  · exact fixed _ fun _ => rfl
  · exact s.receiveRequest_keepsQueue _ r fun t => t.ownRestart_calm.pending
  · exact fixed _ fun _ => rfl

/-! ## The line -/

/-- A frame that passed its checks leaves the queue, whatever its row. -/
theorem State.runFrame_keepsQueue (s : State) (c : Instr) : (s.runFrame c).pending = s.pending := by
  cases sender : c.sender with
  | none => rw [s.runFrame_of_no_sender sender]
  | some _ =>
    cases head : c.commandHead with
    | some h => exact s.runCommand_keepsQueue head
    | none =>
      cases request : c.serviceReq with
      | some q =>
        rw [s.runFrame_request (kind := q.1) (r := q.2) request]
        exact s.rxByKind_keepsQueue q.1 q.2
      | none =>
        cases c
        case statusFrame snd p => exact s.receive_keepsQueue _ _ snd fun t => (t.statusArrival_calm _ p).pending
        case stopFrame snd => exact s.receive_keepsQueue _ true snd fun t => t.stopTaken_calm.pending
        case enableFrame snd targets =>
          show (s.rxEnable snd targets).pending = s.pending
          exact s.receive_keepsQueue _ _ snd fun t => (t.enableTaken_calm snd targets).pending
        case serviceReplyFrame snd _ _ _ _ _ => exact s.receive_keepsQueue _ _ snd fun _ => rfl
        all_goals simp [Instr.sender, Instr.commandHead, Instr.serviceReq] at sender head request

theorem State.takeReport_keepsQueue (s : State) (r : RxReport) : (s.takeReport r).pending = s.pending := by
  cases r with
  | none => rfl
  | discard => exact s.discard_calm.pending
  | frame chars =>
    show (s.judgeFrame chars).pending = s.pending
    unfold State.judgeFrame
    split
    · exact s.runFrame_keepsQueue _
    · exact s.discard_calm.pending

theorem State.lineEvent_keepsQueue (s : State) (e : LineEvent) : (s.lineEvent e).pending = s.pending := by
  unfold State.lineEvent
  exact ((State.checkSent_calm _).pending.trans (State.takeReport_keepsQueue _ _)).trans (s.readBack_calm e).pending

theorem State.lineEvents_keepsQueue (s : State) (es : List LineEvent) : (s.lineEvents es).pending = s.pending := by
  induction es generalizing s with
  | nil => rfl
  | cons e es ih => exact (ih _).trans (s.lineEvent_keepsQueue e)

theorem State.withdrawAt_keepsQueue (s : State) (bit : Nat) : (s.withdrawAt bit).pending = s.pending := by
  unfold State.withdrawAt
  split
  · rfl
  · split
    · rfl
    · exact State.lineEvents_keepsQueue _ _

/-! ## Completions of the store -/

theorem State.finishJob_keepsQueue (s : State) (place : Nat) (o : SvcOutcome) :
    (s.finishJob place o).pending = s.pending :=
  (State.handReply_calm _ _ _ _).pending

theorem State.eraseEnds_keepsQueue (s : State) : s.eraseEnds.pending = s.pending := by
  unfold State.eraseEnds
  split
  · exact State.finishJob_keepsQueue _ _ _
  · rfl

theorem State.programEnds_keepsQueue (s : State) : s.programEnds.pending = s.pending := by
  unfold State.programEnds
  split
  · exact State.finishJob_keepsQueue _ _ _
  · rfl

theorem State.finalizeEnds_keepsQueue (s : State) : s.finalizeEnds.pending = s.pending := by
  unfold State.finalizeEnds
  split
  · split
    · exact s.finishJob_keepsQueue _ _
    · split
      · exact s.finishJob_keepsQueue _ _
      · exact State.finishJob_keepsQueue _ _ _
  · rfl

theorem State.lockEnds_keepsQueue (s : State) : s.lockEnds.pending = s.pending := by
  unfold State.lockEnds
  split
  · exact State.finishJob_keepsQueue _ _ _
  · rfl

theorem State.commitEnds_keepsQueue (s : State) : s.commitEnds.pending = s.pending := by
  unfold State.commitEnds
  split
  · exact State.finishJob_keepsQueue _ _ _
  · rfl

/-! ## The warm restart and the end of START -/

theorem State.warmRestart_keepsQueue (s : State) : s.warmRestart.pending = s.pending := by
  unfold State.warmRestart
  split <;> rfl

theorem State.resumeAxes_keepsQueue (s : State) (prior : Option Record) : (s.resumeAxes prior).pending = s.pending :=
  ((s.judgeReference_calm prior .slew).trans (State.judgeReference_calm _ prior .rake)).pending

theorem State.startEnds_keepsQueue (s : State) (straps : BitVec 5) : (s.startEnds straps).pending = s.pending := by
  unfold State.startEnds
  split
  · refine ((State.readChain_calm _).trans (State.readLine_calm _)).pending.trans ?_
    split
    · exact State.resumeAxes_keepsQueue _ _
    · rfl
  · rfl

/-! ## Every command -/

/-- Log entry 23: no command takes anything from the queue, nor adds to it. -/
theorem exec_keepsQueue {c : Instr} {s t : State} (e : exec c s = .next t) : t.pending = s.pending := by
  by_cases frame : c.sender = none
  case neg => exact live_keepsQueue (exec_runFrame frame s ▸ e) (s.runFrame_keepsQueue c)
  unfold exec at e
  cases c with
  | coldReset pins => cases e; rfl
  | resetTaken => cases e; rfl
  | startEnd straps => exact live_keepsQueue e (s.startEnds_keepsQueue straps)
  | warmRestart => exact live_keepsQueue e s.warmRestart_keepsQueue
  | encoderTransition x a b => exact live_keepsQueue e (s.transition_keepsQueue x a b)
  | slewIndexMark => exact live_keepsQueue e (s.takeMark_keepsQueue .slew)
  | rakeSwitchClose => exact live_keepsQueue e s.switchCloses_keepsQueue
  | rakeSwitchOpen => exact live_keepsQueue e s.switchOpens_keepsQueue
  | endLimitActive x d => exact live_keepsQueue e (s.limitActive_keepsQueue x d)
  | endLimitInactive x d => exact live_keepsQueue e (s.setAxis_pending x _)
  | profileTick => exact live_keepsQueue e s.profileTick_keepsQueue
  | driveReadyActive x => exact live_keepsQueue e (s.readyActive_keepsQueue x)
  | readyLimitExpiry x => exact live_keepsQueue e (s.readyLimitEnds_calm x).pending
  | brakeReleaseExpiry x => exact live_keepsQueue e (s.releaseEnds_calm x).pending
  | holdExpiry x => exact live_keepsQueue e (s.holdEnds_calm x).pending
  | brakeSetExpiry x => exact live_keepsQueue e (s.setEnds_calm x).pending
  | driveLoss x => exact live_keepsQueue e (s.readyInactive_keepsQueue x)
  | localStopChainOpen => exact live_keepsQueue e s.chainOpens_keepsQueue
  | localStopChainClose => exact live_keepsQueue e rfl
  | claimWindowExpiry => exact live_keepsQueue e s.windowExpired_calm.pending
  | zoneTimeout => exact live_keepsQueue e s.zoneWaitEnds_calm.pending
  | peerStale n => exact live_keepsQueue e (s.peerToStale_calm n.toNat).pending
  | peerLost n => exact live_keepsQueue e (s.peerToLost_calm n.toNat).pending
  | enableExpiry => exact live_keepsQueue e s.enableEnds_calm.pending
  | frameDiscard line => exact live_keepsQueue e (s.lineEvents_keepsQueue line)
  | eraseComplete => exact live_keepsQueue e s.eraseEnds_keepsQueue
  | programComplete => exact live_keepsQueue e s.programEnds_keepsQueue
  | finalizeComplete => exact live_keepsQueue e s.finalizeEnds_keepsQueue
  | lockComplete => exact live_keepsQueue e s.lockEnds_keepsQueue
  | commitComplete => exact live_keepsQueue e s.commitEnds_keepsQueue
  | transmitStart => exact live_keepsQueue e s.startTransmit_calm.pending
  | withdraw bit => exact live_keepsQueue e (s.withdrawAt_keepsQueue bit)
  | frameComplete => exact live_keepsQueue e s.completeFrame_calm.pending
  | statusDue => exact live_keepsQueue e s.dueTime_calm.pending
  | busSilent => exact live_keepsQueue e s.silenceEnds_calm.pending
  | holdOffExpiry => exact live_keepsQueue e s.holdOffExpires_calm.pending
  | stepTimeout => exact live_keepsQueue e s.stepTimeEnds_calm.pending
  | dwellEnd => exact live_keepsQueue e s.dwellEnds_calm.pending
  | stopLineAsserted => exact live_keepsQueue e s.lineAsserts_calm.pending
  | stopLineReleased => exact live_keepsQueue e s.lineReleases_calm.pending
  | pwmPeriodStart x => exact live_keepsQueue e (s.setAxis_pending x _)
  | _ => cases frame

/-- Settles O2: every command answers a next state, and each leaves the queue. -/
theorem everyCommandCompletes : Obligations.EveryCommandCompletes := by
  intro c s
  obtain ⟨t, e⟩ := exec_completes c s
  exact ⟨t, e, exec_keepsQueue e⟩

end Sys2Proof.Machine
end
